-- ==== Sys2Proof/Word.lean ====
section
/-! DEFINITION. The three widths of ICSUM16: bytes of the frame buffer, 16-bit checksum words and 32-bit host values (00_scope.md R8, R10). -/

namespace Sys2Proof

/-- A byte of the frame buffer or of the stream (00_scope.md R9). -/
abbrev Byte := BitVec 8

/-- A checksum word: 16 bits (00_scope.md R10). -/
abbrev Half := BitVec 16

/-- A host register value, the accumulator or a command word: 32 bits (00_scope.md R7, R10). -/
abbrev Word := BitVec 32

end Sys2Proof
end

