-- ==== Sys2Proof/Syntax.lean ====
section
/-! DEFINITION. The fourteen commands of 30_encoding.md R73, one constructor per row of the opcode table. -/

namespace Sys2Proof

/-- A command of ICSUM16. Only CK_ADD16 and CK_ADD8 take an operand (30_encoding.md R71, R72). -/
inductive Instr where
  /-- NOP, 43_frame_control.md R155 -/
  | nop
  /-- CK_CLEAR, 40_checksum.md R106 -/
  | ckClear
  /-- CK_ADD16 w, 40_checksum.md R107 -/
  | ckAdd16 (w : Half)
  /-- CK_ADD8 b, 40_checksum.md R108 -/
  | ckAdd8 (b : Byte)
  /-- CK_FINAL, 40_checksum.md R109 -/
  | ckFinal
  /-- CK_BUF, 40_checksum.md R110 -/
  | ckBuf
  /-- VALIDATE, 40_checksum.md R111 -/
  | validate
  /-- BUILD_ECHO_REQ, 41_echo.md R124 -/
  | buildEchoReq
  /-- BUILD_ECHO_REP, 41_echo.md R125 -/
  | buildEchoRep
  /-- BUILD_TS_REQ, 42_timestamp.md R141 -/
  | buildTsReq
  /-- BUILD_TS_REP, 42_timestamp.md R142 -/
  | buildTsRep
  /-- RESUM, 43_frame_control.md R151 -/
  | resum
  /-- EMIT, 43_frame_control.md R152 -/
  | emit
  /-- CLR_ERR, 43_frame_control.md R156 -/
  | clrErr
  deriving DecidableEq, Repr

end Sys2Proof
end

