-- ==== Sys2Proof/Decode.lean ====
section
/-! DEFINITION. Decoding a command word, total and rejecting by name, and the encoder (30_encoding.md R70 to R77). -/

namespace Sys2Proof

/-- Why a word is ILLEGAL (30_encoding.md R75 (a) to (d)). The block records ILLEGAL_CMD for all four
(60_exceptions.md R202); the names are the model's. DESIGN CHOICE, log entry 14, safe. -/
inductive DecodeReject where
  /-- (a) OP is not in the table of R73 -/
  | unassignedOp
  /-- (b) RSV is not 0 -/
  | reservedNotZero
  /-- (c) an F0 OP with IMM not 0 -/
  | immediateNotZero
  /-- (d) CK_ADD8 with IMM[15:8] not 0 -/
  | highImmediateNotZero
  deriving DecidableEq, Repr

/-- The answer of the decoder: a command with its operand, or ILLEGAL (30_encoding.md R74). -/
inductive Decoded where
  | instr (i : Instr)
  | illegal (r : DecodeReject)
  deriving DecidableEq, Repr

/-- OP, bits 31:24 (30_encoding.md R70). -/
def opField (c : Word) : Byte := c.extractLsb' 24 8

/-- RSV, bits 23:16 (30_encoding.md R70). -/
def rsvField (c : Word) : Byte := c.extractLsb' 16 8

/-- IMM, bits 15:0 (30_encoding.md R70). -/
def immField (c : Word) : Half := c.extractLsb' 0 16

/-- Format F0: IMM must be 0 (30_encoding.md R71, R75 (c)). -/
def decodeF0 (i : Instr) (imm : Half) : Decoded :=
  if imm = 0 then .instr i else .illegal .immediateNotZero

/-- Format FI8: IMM[15:8] must be 0, the operand is IMM[7:0] (30_encoding.md R71, R72, R75 (d)). -/
def decodeFI8 (mk : Byte → Instr) (imm : Half) : Decoded :=
  if imm.extractLsb' 8 8 = 0 then .instr (mk (imm.extractLsb' 0 8)) else .illegal .highImmediateNotZero

/-- Format FI16: the operand is IMM, whole (30_encoding.md R71, R72). -/
def decodeFI16 (mk : Half → Instr) (imm : Half) : Decoded := .instr (mk imm)

/-- The opcode map (30_encoding.md R73). -/
def decodeOp (op : Byte) (imm : Half) : Decoded :=
  match op.toNat with
  | 0x00 => decodeF0 .nop imm
  | 0x01 => decodeF0 .ckClear imm
  | 0x02 => decodeFI16 .ckAdd16 imm
  | 0x03 => decodeFI8 .ckAdd8 imm
  | 0x04 => decodeF0 .ckFinal imm
  | 0x05 => decodeF0 .ckBuf imm
  | 0x06 => decodeF0 .validate imm
  | 0x10 => decodeF0 .buildEchoReq imm
  | 0x11 => decodeF0 .buildEchoRep imm
  | 0x12 => decodeF0 .buildTsReq imm
  | 0x13 => decodeF0 .buildTsRep imm
  | 0x14 => decodeF0 .resum imm
  | 0x20 => decodeF0 .emit imm
  | 0x3F => decodeF0 .clrErr imm
  | _ => .illegal .unassignedOp

/-- Decode a command word (30_encoding.md R74): total, and it looks at no state. -/
def decode (c : Word) : Decoded :=
  if rsvField c = 0 then decodeOp (opField c) (immField c) else .illegal .reservedNotZero

/-- The operation code of a command (30_encoding.md R73). -/
def Instr.opcode : Instr → Byte
  | .nop => 0x00
  | .ckClear => 0x01
  | .ckAdd16 _ => 0x02
  | .ckAdd8 _ => 0x03
  | .ckFinal => 0x04
  | .ckBuf => 0x05
  | .validate => 0x06
  | .buildEchoReq => 0x10
  | .buildEchoRep => 0x11
  | .buildTsReq => 0x12
  | .buildTsRep => 0x13
  | .resum => 0x14
  | .emit => 0x20
  | .clrErr => 0x3F

/-- The immediate field of a command: its operand, zero-extended, or 0 (30_encoding.md R71). -/
def Instr.immediate : Instr → Half
  | .ckAdd16 w => w
  | .ckAdd8 b => b.setWidth 16
  | .nop | .ckClear | .ckFinal | .ckBuf | .validate | .buildEchoReq | .buildEchoRep
  | .buildTsReq | .buildTsRep | .resum | .emit | .clrErr => 0

/-- The command word of a command: OP ++ RSV ++ IMM with RSV = 0 (30_encoding.md R70, R71). -/
def encode (i : Instr) : Word := i.opcode ++ (0 : Byte) ++ i.immediate

/-- A row of the match and mask table (30_encoding.md R73). -/
structure TableRow where
  pattern : Word
  mask : Word
  build : Word → Instr

/-- The match and mask table (30_encoding.md R73), with the operand of each row (R74). -/
def matchMaskTable : List TableRow :=
  [ ⟨0x00000000, 0xFFFFFFFF, fun _ => .nop⟩,
    ⟨0x01000000, 0xFFFFFFFF, fun _ => .ckClear⟩,
    ⟨0x02000000, 0xFFFF0000, fun c => .ckAdd16 (c.extractLsb' 0 16)⟩,
    ⟨0x03000000, 0xFFFFFF00, fun c => .ckAdd8 (c.extractLsb' 0 8)⟩,
    ⟨0x04000000, 0xFFFFFFFF, fun _ => .ckFinal⟩,
    ⟨0x05000000, 0xFFFFFFFF, fun _ => .ckBuf⟩,
    ⟨0x06000000, 0xFFFFFFFF, fun _ => .validate⟩,
    ⟨0x10000000, 0xFFFFFFFF, fun _ => .buildEchoReq⟩,
    ⟨0x11000000, 0xFFFFFFFF, fun _ => .buildEchoRep⟩,
    ⟨0x12000000, 0xFFFFFFFF, fun _ => .buildTsReq⟩,
    ⟨0x13000000, 0xFFFFFFFF, fun _ => .buildTsRep⟩,
    ⟨0x14000000, 0xFFFFFFFF, fun _ => .resum⟩,
    ⟨0x20000000, 0xFFFFFFFF, fun _ => .emit⟩,
    ⟨0x3F000000, 0xFFFFFFFF, fun _ => .clrErr⟩ ]

/-- The row matches the word: `c & mask == match` (30_encoding.md R73). -/
def TableRow.matches (r : TableRow) (c : Word) : Bool := (c &&& r.mask) == r.pattern

/-- The decode of 30_encoding.md R74 as the rule writes it: the first matching row, else ILLEGAL. -/
def decodeByTable (c : Word) : Option Instr :=
  (matchMaskTable.find? fun r => r.matches c).map fun r => r.build c

/-- The instruction the decoder reads from a command word whose bits are `w`, numbered as the opcode
table numbers them. Every command is one 32-bit word (30_encoding.md R77). -/
def decodeTableWord (nbits w : Nat) : Option Instr :=
  if nbits ≤ 32 ∧ w < 2 ^ nbits then
    match decode (BitVec.ofNat 32 w) with
    | .instr i => some i
    | .illegal _ => none
  else none

end Sys2Proof
end

