-- ==== Sys2Proof/Machine/Arith.lean ====
section
/-! DEFINITION. Byte order and the checksum arithmetic: acc_add, fold16, csum and the stream's byte pairing (40_checksum.md R100 to R109). -/

namespace Sys2Proof.Machine

/-- `hi ++ lo`: the 16-bit big-endian word of two bytes (00_scope.md R8, 20_memory.md R56). -/
def halfOfBytes (hi lo : Byte) : Half := hi ++ lo

/-- The bytes of a 16-bit value, most significant first: MemWrite(k, 2, v) of 00_scope.md R9. -/
def bytes16 (v : Half) : List Byte := [v.extractLsb' 8 8, v.extractLsb' 0 8]

/-- The bytes of a 32-bit value, most significant first: MemWrite(k, 4, v) of 00_scope.md R9. -/
def bytes32 (v : Word) : List Byte :=
  [v.extractLsb' 24 8, v.extractLsb' 16 8, v.extractLsb' 8 8, v.extractLsb' 0 8]

/-- acc_add (40_checksum.md R101): the sum is exact, and a carry out of bit 31 is added back into bit 0.
DEDUCED, log entry 15: written over naturals instead of the rule's 33-bit value. -/
def accAdd (a : Word) (w : Half) : Word :=
  let t := a.toNat + w.toNat
  BitVec.ofNat 32 (if t < 2 ^ 32 then t else t - 2 ^ 32 + 1)

/-- One pass of carry folding: `(sum & 0xFFFF) + (sum >> 16)` (40_checksum.md R102). -/
def foldStep (s : Nat) : Nat := (s &&& 0xFFFF) + (s >>> 16)

/-- `while s > 0xFFFF` one pass, for at most `fuel` passes (40_checksum.md R102). -/
def foldLoop : Nat → Nat → Nat
  | 0, s => s
  | fuel + 1, s => if s > 0xFFFF then foldLoop fuel (foldStep s) else s

/-- fold16 (40_checksum.md R102). "The loop runs at most twice" for a 32-bit value: DEDUCED, log entry 15. -/
def fold16 (a : Word) : Half := BitVec.ofNat 16 (foldLoop 2 a.toNat)

/-- The 16-bit big-endian words of a byte sequence, an odd final byte padded with zero
(40_checksum.md R100). -/
def words : List Byte → List Half
  | [] => []
  | [b] => [halfOfBytes b 0]
  | b :: c :: rest => halfOfBytes b c :: words rest

/-- The acc_add total of a list of words, from 0 (40_checksum.md R103). -/
def total (ws : List Half) : Word := ws.foldl accAdd 0

/-- The checksum of a byte sequence (40_checksum.md R103). -/
def csum (bs : List Byte) : Half := 0xFFFF - fold16 (total (words bs))

/-- The state of the stream: the total of its complete words and the byte that awaits its partner
(40_checksum.md R106). -/
structure CkStream where
  acc : Word
  odd : Bool
  pend : Byte
  deriving DecidableEq, Repr

/-- The empty stream (40_checksum.md R106). -/
def emptyStream : CkStream := ⟨0, false, 0⟩

/-- push_byte (40_checksum.md R108). -/
def pushByte (t : CkStream) (b : Byte) : CkStream :=
  if t.odd then ⟨accAdd t.acc (halfOfBytes t.pend b), false, 0⟩ else ⟨t.acc, true, b⟩

/-- Push bytes in order. -/
def pushBytes (t : CkStream) (bs : List Byte) : CkStream := bs.foldl pushByte t

/-- The checksum of a stream, with the virtual zero pad: finalize's value (40_checksum.md R109). -/
def streamChecksum (t : CkStream) : Half :=
  0xFFFF - fold16 (if t.odd then accAdd t.acc (halfOfBytes t.pend 0) else t.acc)

/-- A byte sequence with its checksum field, bytes 2 and 3, zeroed (40_checksum.md R111). -/
def zeroField (bs : List Byte) : List Byte := (bs.set 2 0).set 3 0

/-- The checksum field of a byte sequence: bytes 2 and 3, big-endian (41_echo.md R120). -/
def storedField (bs : List Byte) : Half := halfOfBytes (bs.getD 2 0) (bs.getD 3 0)

end Sys2Proof.Machine
end

