-- ==== Sys2Proof/Config.lean ====
section
/-! DEFINITION. What a realization fixes (00_scope.md R7) and the values the spec leaves open (93_implementation_defined.md I1, I4). Constants without a body are open: no proof can see their value. -/

namespace Sys2Proof

/-- FRAME_CAP, the frame buffer's size in bytes, as its excess over 20: every value of this type is a
legal FRAME_CAP, 20 to 65535, and every legal FRAME_CAP is one (00_scope.md R7). -/
structure FrameCap where
  excess : Fin 65516
  deriving DecidableEq, Repr, Inhabited

/-- The number of bytes of the frame buffer. -/
def FrameCap.bytes (c : FrameCap) : Nat := c.excess.val + 20

/-- What the sink answers to a frame (43_frame_control.md R154). -/
inductive SinkAnswer where
  /-- the sink took the frame -/
  | ok
  /-- the sink reports that writing the frame failed -/
  | error
  deriving DecidableEq, Repr, Inhabited

/-- FRAME_CAP of the realization: an OPEN parameter (00_scope.md R7).
DESIGN CHOICE, log entry 1, safe: no value is fixed. -/
opaque Config.frameCap : FrameCap

/-- BASE, the bus address of register offset 0: an OPEN parameter (00_scope.md R7).
DESIGN CHOICE, log entry 12, safe: no value is fixed. -/
opaque Config.base : Nat

/-- Free value: the byte at an index of the frame buffer that nothing has written since the reset with
this number (10_state.md R45, 93_implementation_defined.md I1).
DESIGN CHOICE, log entry 2, safe: a claim holds for every draw. -/
opaque Config.fbDraw : Nat → Nat → Byte

/-- Free value: the answer of the sink to an EMIT, by the number of the draw (43_frame_control.md R154,
93_implementation_defined.md I4).
DESIGN CHOICE, log entry 4, safe: a claim holds for every draw. -/
opaque Config.sinkDraw : Nat → SinkAnswer

/-- The bus address of a host offset: offsets count from BASE (10_state.md R23, 00_scope.md R7). -/
def Config.busAddress (off : Word) : Nat := Config.base + off.toNat

end Sys2Proof
end

