-- ==== Sys2Proof/Machine/Assembly.lean ====
section
/-! DEFINITION. The host side's names as plain data: registers, host accesses, and the assembler's statements and pseudo-instructions (10_state.md R23, 30_encoding.md R78 to R80). -/

namespace Sys2Proof.Machine

/-- The thirteen host-visible registers (10_state.md R23). -/
inductive Reg where
  | cmd | status | acc | csum | pend | ident | seqNum | orig | recv | xmit | plen | len | cap
  deriving DecidableEq, Repr

/-- A host access (30_encoding.md R78). `off` is the byte offset from BASE. -/
inductive HostAccess where
  /-- RD32: a 32-bit read -/
  | rd32 (off : Word)
  /-- WR32: a 32-bit write; to CMD, a command -/
  | wr32 (off : Word) (data : Word)
  /-- RD8: an 8-bit read -/
  | rd8 (off : Word)
  /-- WR8: an 8-bit write -/
  | wr8 (off : Word) (data : Byte)
  deriving DecidableEq, Repr

/-- What the outside world does next to the block: a host access, or the reset input
(30_encoding.md R78, 70_reset_and_hazards.md R230). -/
inductive BusEvent where
  | access (a : HostAccess)
  | reset
  deriving DecidableEq, Repr

/-- The value a completed read returns to the host (30_encoding.md R78). -/
inductive Reply where
  | data32 (v : Word)
  | data8 (v : Byte)
  deriving DecidableEq, Repr

/-- A statement of the assembler (30_encoding.md R79). Operands are the numbers as written: an operand
that does not fit its field is an assembly error. -/
inductive Stmt where
  /-- `wr REG, v` -/
  | wr (r : Reg) (v : Nat)
  /-- `rd REG` -/
  | rd (r : Reg)
  /-- `fb k, b` -/
  | fb (k b : Nat)
  /-- `fbrd k` -/
  | fbrd (k : Nat)
  /-- `MNEMONIC`, for an F0 command -/
  | f0 (i : Instr)
  /-- `CK_ADD8 b` -/
  | ckAdd8 (b : Nat)
  /-- `CK_ADD16 w` -/
  | ckAdd16 (w : Nat)
  /-- `cmd c`, any raw word -/
  | cmd (c : Nat)
  deriving DecidableEq, Repr

/-- A pseudo-instruction of the assembler (30_encoding.md R80). -/
inductive Pseudo where
  /-- `fb.bytes k, b0, ...` -/
  | fbBytes (k : Nat) (bs : List Nat)
  /-- `ck.bytes b0, ...` -/
  | ckBytes (bs : List Nat)
  /-- `CK_ADD32 v` -/
  | ckAdd32 (v : Nat)
  /-- `payload b0, ...` -/
  | payload (bs : List Nat)
  /-- `frame b0, ...` -/
  | frame (bs : List Nat)
  /-- `echo.req id, seq` -/
  | echoReq (ident seqNum : Nat)
  /-- `echo.rep id, seq` -/
  | echoRep (ident seqNum : Nat)
  /-- `ts.req id, seq, o, r, t` -/
  | tsReq (ident seqNum o r t : Nat)
  /-- `ts.rep id, seq, o, r, t` -/
  | tsRep (ident seqNum o r t : Nat)
  deriving DecidableEq, Repr

end Sys2Proof.Machine
end

