-- ==== Sys2Proof/Machine/State.lean ====
section
/-! DEFINITION. The state of the block and of its environment as plain data, the reasons a step can stop, and the state after reset (10_state.md R20 to R48, 70_reset_and_hazards.md R230). -/

namespace Sys2Proof.Machine

/-- The error codes of 60_exceptions.md R201; values 7 to 15 are never recorded, so the type has exactly
these seven (93_implementation_defined.md I12). -/
inductive ErrCode where
  /-- 0 NONE -/
  | none
  /-- 1 ILLEGAL_CMD, R202 -/
  | illegalCmd
  /-- 2 BAD_ACCESS, R203 -/
  | badAccess
  /-- 3 FRAME_OVERFLOW, R204 -/
  | frameOverflow
  /-- 4 FRAME_SHORT, R205 -/
  | frameShort
  /-- 5 STALE_FRAME, R206 -/
  | staleFrame
  /-- 6 SINK_ERROR, R207 -/
  | sinkError
  deriving DecidableEq, Repr

/-- One EMIT attempt: the frame handed to the sink and the sink's answer (10_state.md R46). -/
structure OutEntry where
  bytes : List Byte
  answer : SinkAnswer
  deriving DecidableEq, Repr

/-- What the environment has settled for a coming EMIT: an answer, or none ever
(43_frame_control.md R154, 70_reset_and_hazards.md R240). -/
inductive SinkBehaviour where
  | answers (a : SinkAnswer)
  | never
  deriving DecidableEq, Repr

/-- The written bytes of the frame buffer: (index, byte) pairs, indexes strictly rising. An index that is
not listed has not been written since reset and has no value here (10_state.md R45, log entry 2). -/
abbrev Memory := List Host.Cell

/-- The state. The first part is the block's (10_state.md R20), the second what the spec gives the
environment, the third the model's own bookkeeping. -/
structure State where
  /-- ACC, R34 -/
  acc : Word
  /-- STATUS.ODD, R27 -/
  odd : Bool
  /-- PEND, R36 -/
  pend : Byte
  /-- CSUM, R35 -/
  csum : Half
  /-- ID, R37 -/
  ident : Half
  /-- SEQ, R38 -/
  seqNum : Half
  /-- ORIG, R39 -/
  orig : Word
  /-- RECV, R40 -/
  recv : Word
  /-- XMIT, R41 -/
  xmit : Word
  /-- PLEN, R42 -/
  plen : Half
  /-- LEN, R43 -/
  len : Half
  /-- STATUS.ERR, R26 -/
  err : Bool
  /-- STATUS.ERRCODE, R32 -/
  errCode : ErrCode
  /-- STATUS.FRAME_VALID, R28 -/
  frameValid : Bool
  /-- STATUS.VDONE, R29 -/
  vdone : Bool
  /-- STATUS.MATCH, R30 -/
  matched : Bool
  /-- STATUS.SHORT, R31 -/
  short : Bool
  /-- CAP, the constant FRAME_CAP, R44: nothing writes it -/
  cap : FrameCap
  /-- FB, R45 -/
  fb : Memory
  /-- OUT, R46: the environment's record, which the block never reads -/
  out : List OutEntry
  /-- The model's own: which draw of the frame buffer's contents stands (log entries 2, 3). -/
  fbEpoch : Nat
  /-- The model's own: the sink's settled behaviour for the next EMITs (log entry 4). -/
  sink : List SinkBehaviour
  /-- The model's own: how many answers of the sink were free draws (log entry 4). -/
  sinkDraws : Nat
  /-- The model's own: the host accesses and resets still to come (R78, log entry 5). -/
  host : List BusEvent
  /-- The model's own: the values the host's reads returned, oldest first (R78, log entry 7). -/
  replies : List Reply
  deriving DecidableEq, Repr

/-- Why the machine can stop. -/
inductive Fault where
  /-- Raised by EMIT when the sink never answers: the run is stuck at that access
  (70_reset_and_hazards.md R240, 93_implementation_defined.md I5). Safe: the hardware does not go on either. -/
  | sinkNeverAnswers
  deriving DecidableEq, Repr

/-- Why an instruction has no meaning. -/
inductive Refusal where
  /-- Raised by exec for an instruction that is not modelled; no arm raises it. Safe. -/
  | notModelled (mnemonic : String)
  deriving DecidableEq, Repr

/-- The machine right after reset (70_reset_and_hazards.md R230): every register 0, CAP = FRAME_CAP, no
byte of FB written, no frame emitted yet, and nothing settled about the outside world. -/
def State.reset : State where
  acc := 0
  odd := false
  pend := 0
  csum := 0
  ident := 0
  seqNum := 0
  orig := 0
  recv := 0
  xmit := 0
  plen := 0
  len := 0
  err := false
  errCode := .none
  frameValid := false
  vdone := false
  matched := false
  short := false
  cap := Config.frameCap
  fb := []
  out := []
  fbEpoch := 0
  sink := []
  sinkDraws := 0
  host := []
  replies := []

end Sys2Proof.Machine
end

