-- ==== Sys2Proof/Machine/Ops.lean ====
section
/-! DEFINITION. The named operations over the state: the frame buffer, the stream, error recording and its clearing, the sink, the host's reply and the reset input. -/

namespace Sys2Proof.Machine

/-! ### The frame buffer's cells -/

/-- The byte written at an index, if any (10_state.md R45). -/
def Memory.lookup : Memory → Nat → Option Byte
  | [], _ => none
  | (a, b) :: m, k => if a = k then some b else Memory.lookup m k

/-- Write one byte, keeping the indexes strictly rising (10_state.md R45). -/
def Memory.write : Memory → Nat → Byte → Memory
  | [], k, v => [(k, v)]
  | (a, b) :: m, k, v =>
    if k < a then (k, v) :: (a, b) :: m
    else if k = a then (k, v) :: m
    else (a, b) :: Memory.write m k v

/-- Write bytes at consecutive indexes, the first at `k` (00_scope.md R9, MemWrite). -/
def Memory.writeBytes : Memory → Nat → List Byte → Memory
  | m, _, [] => m
  | m, k, b :: bs => Memory.writeBytes (Memory.write m k b) (k + 1) bs

/-- The canonical form: indexes strictly rising. An unlisted index has no value, so no listed byte can be
equal to it (log entry 2). -/
def Memory.wf : Memory → Bool
  | [] => true
  | [_] => true
  | (a, _) :: (b, v) :: m => decide (a < b) && Memory.wf ((b, v) :: m)

/-- `FB[k]`: the byte written there, or the free value that stands since the reset
(10_state.md R45, log entry 2). -/
def fbByte (s : State) (k : Nat) : Byte :=
  match Memory.lookup s.fb k with
  | some b => b
  | none => Config.fbDraw s.fbEpoch k

/-- `[FB[k], ..., FB[k+n-1]]`. -/
def fbBytes (s : State) (k n : Nat) : List Byte := (List.range n).map fun i => fbByte s (k + i)

/-- MemRead(k, 2): big-endian (00_scope.md R9, 20_memory.md R56). -/
def memRead16 (s : State) (k : Nat) : Half := halfOfBytes (fbByte s k) (fbByte s (k + 1))

/-- MemRead(k, 4): big-endian (00_scope.md R9, 20_memory.md R56). -/
def memRead32 (s : State) (k : Nat) : Word :=
  fbByte s k ++ fbByte s (k + 1) ++ fbByte s (k + 2) ++ fbByte s (k + 3)

/-- MemWrite: put bytes into FB from index `k` on (00_scope.md R9). -/
def fbStore (k : Nat) (bs : List Byte) (s : State) : State :=
  { s with fb := Memory.writeBytes s.fb k bs }

/-! ### The stream -/

/-- The stream's state (40_checksum.md R106). -/
def stream (s : State) : CkStream := ⟨s.acc, s.odd, s.pend⟩

/-- Write ACC, ODD and PEND. -/
def setStream (t : CkStream) (s : State) : State := { s with acc := t.acc, odd := t.odd, pend := t.pend }

/-- finalize (40_checksum.md R109): CSUM <- 0xFFFF - fold16 of the padded stream; the stream stays. -/
def finalize (s : State) : State := { s with csum := streamChecksum (stream s) }

/-- Clear the stream, push bytes, finalize: the run every buffer command makes (40_checksum.md R110,
41_echo.md R123). -/
def sumBytes (bs : List Byte) (s : State) : State := finalize (setStream (pushBytes emptyStream bs) s)

/-! ### Status fields and LEN -/

/-- Write FRAME_VALID (43_frame_control.md R150). -/
def setFrameValid (v : Bool) (s : State) : State := { s with frameValid := v }

/-- Write LEN. -/
def setLen (n : Nat) (s : State) : State := { s with len := BitVec.ofNat 16 n }

/-- The result of a VALIDATE: VDONE, MATCH, SHORT and FRAME_VALID (40_checksum.md R111). -/
def setVerdict (m short : Bool) (s : State) : State :=
  { s with vdone := true, matched := m, short := short, frameValid := m }

/-! ### Taking an error, and clearing it -/

/-- The error record: the first code since the last clear is kept (60_exceptions.md R200, R211). -/
def recordError (c : ErrCode) (s : State) : State :=
  { s with err := true, errCode := if s.err then s.errCode else c }

/-- `raise Error(code)`: the operation ends with the error record and no other effect, and the block goes
on (60_exceptions.md R200, R210). -/
def raiseError (c : ErrCode) (s : State) : Host.Outcome State Fault Refusal := .next (recordError c s)

/-- Return from an error: the record is cleared (43_frame_control.md R156, 60_exceptions.md R211). -/
def clearError (s : State) : State := { s with err := false, errCode := .none }

/-! ### The sink -/

/-- The answer to the EMIT at hand: the settled one, else a free draw; `none` when the sink never answers
(43_frame_control.md R154, 70_reset_and_hazards.md R240, log entry 4). -/
def sinkAnswer (s : State) : Option SinkAnswer :=
  match s.sink with
  | [] => some (Config.sinkDraw s.sinkDraws)
  | .answers a :: _ => some a
  | .never :: _ => none

/-- The sink's behaviour for this EMIT is used up. -/
def consumeSink (s : State) : State :=
  match s.sink with
  | [] => { s with sinkDraws := s.sinkDraws + 1 }
  | _ :: rest => { s with sink := rest }

/-- OUT <- OUT ++ [(frame, ans)] (43_frame_control.md R152). -/
def appendOut (e : OutEntry) (s : State) : State := { s with out := s.out ++ [e] }

/-! ### The host port -/

/-- A read returns a value to the host (30_encoding.md R78). -/
def reply (r : Reply) (s : State) : State := { s with replies := s.replies ++ [r] }

/-- The host port takes the event at the head of the list; `rest` is still to come. -/
def setHost (rest : List BusEvent) (s : State) : State := { s with host := rest }

/-! ### Reset -/

/-- The reset input (70_reset_and_hazards.md R230, R231): every register takes its reset value, CAP keeps
FRAME_CAP, each byte of FB holds a new draw, OUT and the outside world stay (log entries 3, 9). -/
def resetBlock (s : State) : State :=
  { s with
    acc := 0, odd := false, pend := 0, csum := 0, ident := 0, seqNum := 0,
    orig := 0, recv := 0, xmit := 0, plen := 0, len := 0,
    err := false, errCode := .none, frameValid := false, vdone := false, matched := false, short := false,
    fb := [], fbEpoch := s.fbEpoch + 1 }

end Sys2Proof.Machine
end

