-- ==== Sys2Proof/Machine/Flags.lean ====
section
/-! DEFINITION. STATUS and its fields as software reads them (10_state.md R25 to R33, 60_exceptions.md R201). -/

namespace Sys2Proof.Machine

/-- The four bits of an error code (60_exceptions.md R201). -/
def errBits : ErrCode → BitVec 4
  | .none => 0
  | .illegalCmd => 1
  | .badAccess => 2
  | .frameOverflow => 3
  | .frameShort => 4
  | .staleFrame => 5
  | .sinkError => 6

/-- STATUS: `0[31:12] ++ ERRCODE ++ 0[7:6] ++ SHORT ++ MATCH ++ VDONE ++ FRAME_VALID ++ ODD ++ ERR`
(10_state.md R25). -/
def statusWord (s : State) : Word :=
  (0 : BitVec 20) ++ errBits s.errCode ++ (0 : BitVec 2) ++ BitVec.ofBool s.short ++ BitVec.ofBool s.matched
    ++ BitVec.ofBool s.vdone ++ BitVec.ofBool s.frameValid ++ BitVec.ofBool s.odd ++ BitVec.ofBool s.err

end Sys2Proof.Machine
end

