-- ==== Sys2Proof/Machine/Operands.lean ====
section
/-! DEFINITION. What a command or a host access operates on: the current frame, and the host's register map and frame-buffer window (10_state.md R23, 20_memory.md R51, R52). -/

namespace Sys2Proof.Machine

/-- LEN as a number of bytes (10_state.md R43). -/
def frameLen (s : State) : Nat := s.len.toNat

/-- The length of an Echo frame: 8 + PLEN (41_echo.md R122). -/
def echoLen (s : State) : Nat := 8 + s.plen.toNat

/-- FRAME_CAP (10_state.md R44). -/
def frameCap (s : State) : Nat := s.cap.bytes

/-- The frame: FB[0 .. LEN-1] (00_scope.md, glossary). -/
def frame (s : State) : List Byte := fbBytes s 0 (frameLen s)

/-- The offset of a register from BASE (10_state.md R23). -/
def Reg.offset : Reg → Word
  | .cmd => 0x00
  | .status => 0x04
  | .acc => 0x08
  | .csum => 0x0C
  | .pend => 0x10
  | .ident => 0x14
  | .seqNum => 0x18
  | .orig => 0x1C
  | .recv => 0x20
  | .xmit => 0x24
  | .plen => 0x28
  | .len => 0x2C
  | .cap => 0x30

/-- The register at an offset: one of the thirteen mapped offsets, all multiples of 4
(20_memory.md R51). -/
def regAt (off : Word) : Option Reg :=
  match off.toNat with
  | 0x00 => some .cmd
  | 0x04 => some .status
  | 0x08 => some .acc
  | 0x0C => some .csum
  | 0x10 => some .pend
  | 0x14 => some .ident
  | 0x18 => some .seqNum
  | 0x1C => some .orig
  | 0x20 => some .recv
  | 0x24 => some .xmit
  | 0x28 => some .plen
  | 0x2C => some .len
  | 0x30 => some .cap
  | _ => none

/-- The index of FB that a byte access at an offset reaches (20_memory.md R52). -/
def fbIndex (off : Word) (s : State) : Option Nat :=
  if 0x10000 ≤ off.toNat ∧ off.toNat < 0x10000 + frameCap s then some (off.toNat - 0x10000) else none

/-- The value a host read of a register returns; unused bits read as 0 (10_state.md R23 to R44). -/
def readReg (r : Reg) (s : State) : Word :=
  match r with
  | .cmd => 0
  | .status => statusWord s
  | .acc => s.acc
  | .csum => s.csum.setWidth 32
  | .pend => s.pend.setWidth 32
  | .ident => s.ident.setWidth 32
  | .seqNum => s.seqNum.setWidth 32
  | .orig => s.orig
  | .recv => s.recv
  | .xmit => s.xmit
  | .plen => s.plen.setWidth 32
  | .len => s.len.setWidth 32
  | .cap => BitVec.ofNat 32 (frameCap s)

end Sys2Proof.Machine
end

