-- ==== Sys2Proof/Machine/Checksum.lean ====
section
/-! DEFINITION. The meanings of the checksum engine's commands (40_checksum.md R106 to R111). -/

namespace Sys2Proof.Machine

/-- CK_CLEAR (40_checksum.md R106). -/
def execCkClear (s : State) : Host.Outcome State Fault Refusal := .next (setStream emptyStream s)

/-- CK_ADD16 w: push w[15:8], then w[7:0] (40_checksum.md R107). -/
def execCkAdd16 (w : Half) (s : State) : Host.Outcome State Fault Refusal :=
  .next (setStream (pushBytes (stream s) (bytes16 w)) s)

/-- CK_ADD8 b: push b (40_checksum.md R108). -/
def execCkAdd8 (b : Byte) (s : State) : Host.Outcome State Fault Refusal :=
  .next (setStream (pushByte (stream s) b) s)

/-- CK_FINAL (40_checksum.md R109). -/
def execCkFinal (s : State) : Host.Outcome State Fault Refusal := .next (finalize s)

/-- CK_BUF (40_checksum.md R110). -/
def execCkBuf (s : State) : Host.Outcome State Fault Refusal :=
  if frameLen s > frameCap s then raiseError .frameOverflow s
  else .next (sumBytes (frame s) s)

/-- VALIDATE (40_checksum.md R111): the recomputation runs over a zeroed view, FB is not written. -/
def execValidate (s : State) : Host.Outcome State Fault Refusal :=
  if frameLen s > frameCap s then raiseError .frameOverflow s
  else if frameLen s < 4 then .next (setVerdict false true s)
  else
    let stored := memRead16 s 2
    let summed := sumBytes (zeroField (frame s)) s
    .next (setVerdict (decide (summed.csum = stored)) false summed)

end Sys2Proof.Machine
end

