-- ==== Sys2Proof/Machine/Build.lean ====
section
/-! DEFINITION. The procedure every BUILD command shares, and the checksum patch it shares with RESUM (41_echo.md R123, 43_frame_control.md R151). -/

namespace Sys2Proof.Machine

/-- Sum FB[0 .. n-1], whose checksum field is zero, patch the checksum into FB[2 .. 3] and mark the frame
fresh (41_echo.md R123, 43_frame_control.md R151). -/
def sumAndPatch (n : Nat) (s : State) : State :=
  let summed := sumBytes (fbBytes s 0 n) s
  setFrameValid true (fbStore 2 (bytes16 summed.csum) summed)

/-- The header and the two fields every message has: type, code 0, checksum field 0, ID, SEQ
(41_echo.md R120, R123). -/
def messageHead (type : Byte) (s : State) : List Byte :=
  [type, 0] ++ bytes16 0 ++ bytes16 s.ident ++ bytes16 s.seqNum

/-- build_frame(type, n, body) (41_echo.md R123); `body` is the bytes the variant writes from index 8 on. -/
def buildFrame (type : Byte) (n : Nat) (body : List Byte) (s : State) : Host.Outcome State Fault Refusal :=
  if n > frameCap s then raiseError .frameOverflow s
  else .next (sumAndPatch n (setLen n (fbStore 8 body (fbStore 0 (messageHead type s) s))))

end Sys2Proof.Machine
end

