-- ==== Sys2Proof/Machine/Echo.lean ====
section
/-! DEFINITION. The meanings of the Echo builders (41_echo.md R124, R125). -/

namespace Sys2Proof.Machine

/-- BUILD_ECHO_REQ: type 8; the payload is in place already (41_echo.md R124). -/
def execBuildEchoReq (s : State) : Host.Outcome State Fault Refusal := buildFrame 8 (echoLen s) [] s

/-- BUILD_ECHO_REP: type 0 (41_echo.md R125). -/
def execBuildEchoRep (s : State) : Host.Outcome State Fault Refusal := buildFrame 0 (echoLen s) [] s

end Sys2Proof.Machine
end

