-- ==== Sys2Proof/Machine/FrameControl.lean ====
section
/-! DEFINITION. The meanings of RESUM, EMIT, NOP and CLR_ERR (43_frame_control.md R151 to R156). -/

namespace Sys2Proof.Machine

/-- RESUM (43_frame_control.md R151). -/
def execResum (s : State) : Host.Outcome State Fault Refusal :=
  if frameLen s > frameCap s then raiseError .frameOverflow s
  else if frameLen s < 4 then raiseError .frameShort s
  else .next (sumAndPatch (frameLen s) (fbStore 2 (bytes16 0) s))

/-- EMIT (43_frame_control.md R152): the attempt stays in OUT whatever the answer is. -/
def execEmit (s : State) : Host.Outcome State Fault Refusal :=
  if frameLen s > frameCap s then raiseError .frameOverflow s
  else if s.frameValid = false then raiseError .staleFrame s
  else
    match sinkAnswer s with
    | none => .fault .sinkNeverAnswers
    | some .ok => .next (appendOut ⟨frame s, .ok⟩ (consumeSink s))
    | some .error => raiseError .sinkError (appendOut ⟨frame s, .error⟩ (consumeSink s))

/-- NOP (43_frame_control.md R155). -/
def execNop (s : State) : Host.Outcome State Fault Refusal := .next s

/-- CLR_ERR (43_frame_control.md R156). -/
def execClrErr (s : State) : Host.Outcome State Fault Refusal := .next (clearError s)

end Sys2Proof.Machine
end

