-- ==== Sys2Proof/Machine/Timestamp.lean ====
section
/-! DEFINITION. The meanings of the Timestamp builders (42_timestamp.md R140 to R142). -/

namespace Sys2Proof.Machine

/-- The body of a Timestamp frame: ORIG at 8, RECV at 12, XMIT at 16, big-endian (42_timestamp.md R140). -/
def timestampBody (s : State) : List Byte := bytes32 s.orig ++ bytes32 s.recv ++ bytes32 s.xmit

/-- BUILD_TS_REQ: type 13, 20 bytes (42_timestamp.md R141). -/
def execBuildTsReq (s : State) : Host.Outcome State Fault Refusal := buildFrame 13 20 (timestampBody s) s

/-- BUILD_TS_REP: type 14, 20 bytes (42_timestamp.md R142). -/
def execBuildTsRep (s : State) : Host.Outcome State Fault Refusal := buildFrame 14 20 (timestampBody s) s

end Sys2Proof.Machine
end

