-- ==== Sys2Proof/Machine/Dispatch.lean ====
section
/-! DEFINITION. One arm per command, each one call of its meaning (30_encoding.md R73). -/

namespace Sys2Proof.Machine

def exec (i : Instr) (s : State) : Host.Outcome State Fault Refusal :=
  match i with
  | .nop => Sys2Proof.Machine.execNop s
  | .ckClear => Sys2Proof.Machine.execCkClear s
  | .ckAdd16 w => Sys2Proof.Machine.execCkAdd16 w s
  | .ckAdd8 b => Sys2Proof.Machine.execCkAdd8 b s
  | .ckFinal => Sys2Proof.Machine.execCkFinal s
  | .ckBuf => Sys2Proof.Machine.execCkBuf s
  | .validate => Sys2Proof.Machine.execValidate s
  | .buildEchoReq => Sys2Proof.Machine.execBuildEchoReq s
  | .buildEchoRep => Sys2Proof.Machine.execBuildEchoRep s
  | .buildTsReq => Sys2Proof.Machine.execBuildTsReq s
  | .buildTsRep => Sys2Proof.Machine.execBuildTsRep s
  | .resum => Sys2Proof.Machine.execResum s
  | .emit => Sys2Proof.Machine.execEmit s
  | .clrErr => Sys2Proof.Machine.execClrErr s

end Sys2Proof.Machine
end

