-- ==== Sys2Proof/Machine/HostPort.lean ====
section
/-! DEFINITION. What one host access does to the block (20_memory.md R51 to R55, 30_encoding.md R74, 60_exceptions.md R203). -/

namespace Sys2Proof.Machine

/-- A write of a word to CMD: decode it and perform the command, or record ILLEGAL_CMD
(10_state.md R24, 30_encoding.md R74). -/
def command (c : Word) (s : State) : Host.Outcome State Fault Refusal :=
  match decode c with
  | .instr i => exec i s
  | .illegal _ => raiseError .illegalCmd s

/-- WR32 to a register (20_memory.md R54): fields are stored and other bits ignored, a write to LEN makes
the frame stale (10_state.md R43), a write to a read-only register is BAD_ACCESS. -/
def writeReg (r : Reg) (v : Word) (s : State) : Host.Outcome State Fault Refusal :=
  match r with
  | .cmd => command v s
  | .status | .acc | .csum | .pend | .cap => raiseError .badAccess s
  | .ident => .next { s with ident := v.setWidth 16 }
  | .seqNum => .next { s with seqNum := v.setWidth 16 }
  | .orig => .next { s with orig := v }
  | .recv => .next { s with recv := v }
  | .xmit => .next { s with xmit := v }
  | .plen => .next { s with plen := v.setWidth 16 }
  | .len => .next { s with len := v.setWidth 16, frameValid := false }

/-- WR32 (20_memory.md R51, R52, R54). -/
def hostWrite32 (off v : Word) (s : State) : Host.Outcome State Fault Refusal :=
  match regAt off with
  | some r => writeReg r v s
  | none => raiseError .badAccess s

/-- RD32 (20_memory.md R51 to R53): a failing read returns 0. -/
def hostRead32 (off : Word) (s : State) : State :=
  match regAt off with
  | some r => reply (.data32 (readReg r s)) s
  | none => reply (.data32 0) (recordError .badAccess s)

/-- Writing FB[k] makes the frame stale when k < LEN (20_memory.md R55). -/
def writeFb (k : Nat) (v : Byte) (s : State) : State :=
  if k < frameLen s then setFrameValid false (fbStore k [v] s) else fbStore k [v] s

/-- WR8 (20_memory.md R52, R55). -/
def hostWrite8 (off : Word) (v : Byte) (s : State) : State :=
  match fbIndex off s with
  | some k => writeFb k v s
  | none => recordError .badAccess s

/-- RD8 (20_memory.md R52, R53): a failing read returns 0. -/
def hostRead8 (off : Word) (s : State) : State :=
  match fbIndex off s with
  | some k => reply (.data8 (fbByte s k)) s
  | none => reply (.data8 0) (recordError .badAccess s)

/-- One host access, performed whole (20_memory.md R59, R62). -/
def performAccess (a : HostAccess) (s : State) : Host.Outcome State Fault Refusal :=
  match a with
  | .rd32 off => .next (hostRead32 off s)
  | .wr32 off v => hostWrite32 off v s
  | .rd8 off => .next (hostRead8 off s)
  | .wr8 off v => .next (hostWrite8 off v s)

/-- One event of the outside world (30_encoding.md R78, 70_reset_and_hazards.md R230). -/
def performEvent (e : BusEvent) (s : State) : Host.Outcome State Fault Refusal :=
  match e with
  | .access a => performAccess a s
  | .reset => .next (resetBlock s)

/-- The block acts only on host accesses and reset: without an event the state is held
(60_exceptions.md R219, log entry 6). -/
def performNext (s : State) : Host.Outcome State Fault Refusal :=
  match s.host with
  | [] => .next s
  | e :: rest => performEvent e (setHost rest s)

/-- The host's next access is a WR32 of a command word to CMD; what was still to come comes after it. -/
def queueCommand (c : Word) (s : State) : State :=
  setHost (.access (.wr32 (Reg.offset .cmd) c) :: s.host) s

end Sys2Proof.Machine
end

