-- ==== Sys2Proof/Machine/Step.lean ====
section
/-! DEFINITION. One step of the machine: the next event of the outside world, performed whole (00_scope.md R5, 20_memory.md R62). -/

namespace Sys2Proof.Machine

/-- One step: the event at the head of the host's list (20_memory.md R62). -/
def step (s : State) : Host.Outcome State Fault Refusal := performNext s

/-- `s` with the host about to write the command word `w` to CMD. The block fetches nothing
(10_state.md R22): its next command is the host's next CMD write (log entry 5). -/
def State.withFetchWord (s : State) (nbits w : Nat) : State :=
  queueCommand (BitVec.ofNat 32 (w % 2 ^ nbits)) s

end Sys2Proof.Machine
end

