-- ==== Sys2Proof/WellFormed.lean ====
section
/-! DEFINITION. When a term of the syntax is well-formed: operands fit their fields (30_encoding.md R71, R79). -/

namespace Sys2Proof

/-- The instruction format is F0: no operand (30_encoding.md R71). -/
def Instr.isF0 : Instr → Bool
  | .ckAdd16 _ => false
  | .ckAdd8 _ => false
  | .nop | .ckClear | .ckFinal | .ckBuf | .validate | .buildEchoReq | .buildEchoRep
  | .buildTsReq | .buildTsRep | .resum | .emit | .clrErr => true

/-- Every operand of a command fits its field: w in IMM[15:0], b in IMM[7:0] (30_encoding.md R72). The
operands' own types hold exactly those values, so the check refuses no command; the checks that
can refuse are those on assembler statements. -/
def Instr.wellFormed : Instr → Bool
  | .ckAdd16 w => decide (w.toNat < 2 ^ 16)
  | .ckAdd8 b => decide (b.toNat < 2 ^ 8)
  | .nop | .ckClear | .ckFinal | .ckBuf | .validate | .buildEchoReq | .buildEchoRep
  | .buildTsReq | .buildTsRep | .resum | .emit | .clrErr => true

/-- The operands of an assembler statement fit their fields; "An operand that does not fit its field is
an assembly error, never truncated" (30_encoding.md R79). DEDUCED, log entry 16: the field of `wr` and
`cmd` is the 32-bit data of WR32, that of k the 32-bit offset 0x10000 + k. -/
def Machine.Stmt.wellFormed : Machine.Stmt → Bool
  | .wr _ v => decide (v < 2 ^ 32)
  | .rd _ => true
  | .fb k b => decide (0x10000 + k < 2 ^ 32) && decide (b < 2 ^ 8)
  | .fbrd k => decide (0x10000 + k < 2 ^ 32)
  | .f0 i => i.isF0
  | .ckAdd8 b => decide (b < 2 ^ 8)
  | .ckAdd16 w => decide (w < 2 ^ 16)
  | .cmd c => decide (c < 2 ^ 32)

/-- The operands of a pseudo-instruction that its expansion cuts up fit their fields: only CK_ADD32 cuts
its operand, the others hand theirs to the statements of the expansion (30_encoding.md R80). -/
def Machine.Pseudo.wellFormed : Machine.Pseudo → Bool
  | .ckAdd32 v => decide (v < 2 ^ 32)
  | .fbBytes _ _ | .ckBytes _ | .payload _ | .frame _ | .echoReq _ _ | .echoRep _ _
  | .tsReq _ _ _ _ _ | .tsRep _ _ _ _ _ => true

end Sys2Proof
end

