-- ==== Sys2Proof/Machine/Assembler.lean ====
section
/-! DEFINITION. The assembler: statements to host accesses, pseudo-instructions to statements (30_encoding.md R79, R80). -/

namespace Sys2Proof.Machine

/-- The host offset of FB[k] (20_memory.md R52). -/
def fbOffset (k : Nat) : Word := BitVec.ofNat 32 (0x10000 + k)

/-- The host access of a statement whose operands fit (30_encoding.md R79). -/
def Stmt.access : Stmt → HostAccess
  | .wr r v => .wr32 (Reg.offset r) (BitVec.ofNat 32 v)
  | .rd r => .rd32 (Reg.offset r)
  | .fb k b => .wr8 (fbOffset k) (BitVec.ofNat 8 b)
  | .fbrd k => .rd8 (fbOffset k)
  | .f0 i => .wr32 0 (encode i)
  | .ckAdd8 b => .wr32 0 (encode (.ckAdd8 (BitVec.ofNat 8 b)))
  | .ckAdd16 w => .wr32 0 (encode (.ckAdd16 (BitVec.ofNat 16 w)))
  | .cmd c => .wr32 0 (BitVec.ofNat 32 c)

/-- Assemble a statement; `none` is an assembly error (30_encoding.md R79). -/
def Stmt.assemble (t : Stmt) : Option HostAccess := if t.wellFormed then some t.access else none

/-- `fb.bytes` (30_encoding.md R80). -/
def expandFbBytes : Nat → List Nat → List Stmt
  | _, [] => []
  | k, b :: bs => .fb k b :: expandFbBytes (k + 1) bs

/-- The expansion of a pseudo-instruction (30_encoding.md R80). -/
def Pseudo.expand : Pseudo → List Stmt
  | .fbBytes k bs => expandFbBytes k bs
  | .ckBytes bs => bs.map .ckAdd8
  | .ckAdd32 v => [.ckAdd16 (v / 2 ^ 16), .ckAdd16 (v % 2 ^ 16)]
  | .payload bs => expandFbBytes 8 bs ++ [.wr .plen bs.length]
  | .frame bs => expandFbBytes 0 bs ++ [.wr .len bs.length]
  | .echoReq i q => [.wr .ident i, .wr .seqNum q, .f0 .buildEchoReq]
  | .echoRep i q => [.wr .ident i, .wr .seqNum q, .f0 .buildEchoRep]
  | .tsReq i q o r t =>
    [.wr .ident i, .wr .seqNum q, .wr .orig o, .wr .recv r, .wr .xmit t, .f0 .buildTsReq]
  | .tsRep i q o r t =>
    [.wr .ident i, .wr .seqNum q, .wr .orig o, .wr .recv r, .wr .xmit t, .f0 .buildTsRep]

/-- Assemble a list of statements: an error in one is an error of the whole. -/
def assembleAll (ts : List Stmt) : Option (List HostAccess) := ts.mapM Stmt.assemble

end Sys2Proof.Machine
end

