-- ==== Sys2Proof/Safety.lean ====
section
/-! DEFINITION. What counts as a legal state and a safe run: the field invariants of 10_state.md, a fresh frame that carries its own checksum (R28, 43_frame_control.md R150), and only such frames in OUT. -/

namespace Sys2Proof.Machine

/-- The outcome of a list of commands performed one after another (20_memory.md R62). -/
def execAll : List Instr → State → Host.Outcome State Fault Refusal
  | [], s => .next s
  | i :: is, s =>
    match exec i s with
    | .next t => execAll is t
    | .fault r => .fault r
    | .refused r => .refused r

/-- The command that the host's next access writes to CMD, if it is one (30_encoding.md R74, R78). -/
def nextCommand (s : State) : Option Instr :=
  match s.host with
  | .access (.wr32 off c) :: _ =>
    if off = Reg.offset .cmd then
      match decode c with
      | .instr i => some i
      | .illegal _ => none
    else none
  | _ => none

/-- The outside world's next event is `e`. -/
def NextEvent (e : BusEvent) (s : State) : Prop := s.host.head? = some e

/-- The event writes neither LEN nor FB, by the host or by a BUILD, and is no reset: what two EMITs of one
frame may have between them (43_frame_control.md R153). A WR8 that reaches no byte of FB is BAD_ACCESS and
writes nothing. -/
def LeavesFrame (s : State) : BusEvent → Prop
  | .reset => False
  | .access (.rd32 _) | .access (.rd8 _) => True
  | .access (.wr8 off _) => fbIndex off s = none
  | .access (.wr32 off v) => off ≠ Reg.offset .len ∧ (off = Reg.offset .cmd →
      ∀ i ∈ [Instr.buildEchoReq, .buildEchoRep, .buildTsReq, .buildTsRep], decode v ≠ .instr i)

/-- `c` is the only word with operation code `op` that is a command, and it is `i`: the others are ILLEGAL
(30_encoding.md R75 (b), (c)). -/
def OnlyWord (op : Byte) (c : Word) (i : Instr) : Prop :=
  decode c = .instr i ∧ ∀ d, opField d = op → d ≠ c → ∃ r, decode d = .illegal r

/-- The bytes a command pushes, for the two commands that push (40_checksum.md R107, R108). -/
def pushedBytes : Instr → Option (List Byte)
  | .ckAdd16 w => some (bytes16 w)
  | .ckAdd8 b => some [b]
  | .nop | .ckClear | .ckFinal | .ckBuf | .validate | .buildEchoReq | .buildEchoRep
  | .buildTsReq | .buildTsRep | .resum | .emit | .clrErr => none

/-- The bytes a list of pushes pushes, when all its commands push. -/
def pushedAll : List Instr → Option (List Byte)
  | [] => some []
  | i :: is =>
    match pushedBytes i, pushedAll is with
    | some b, some bs => some (b ++ bs)
    | _, _ => none

/-- FB[0 .. n-1] with bytes 2 and 3 taken as zero, as 40_checksum.md R111 writes the view. -/
def zeroedView (s : State) (n : Nat) : List Byte :=
  (List.range n).map fun k => if k = 2 ∨ k = 3 then 0 else fbByte s k

/-- The condition under which a command that makes the frame fresh has its whole effect
(41_echo.md R123, 43_frame_control.md R151). -/
def SealSucceeds (i : Instr) (s : State) : Prop :=
  match i with
  | .buildEchoReq | .buildEchoRep => echoLen s ≤ frameCap s
  | .buildTsReq | .buildTsRep => True
  | .resum => 4 ≤ frameLen s ∧ frameLen s ≤ frameCap s
  | .nop | .ckClear | .ckAdd16 _ | .ckAdd8 _ | .ckFinal | .ckBuf | .validate | .emit | .clrErr => False

/-- A packet is valid: it has a checksum field, which equals the checksum over the packet with that field
zeroed (40_checksum.md R111, R113 (a)). -/
abbrev ValidPacket (bs : List Byte) : Prop := 4 ≤ bs.length ∧ storedField bs = csum (zeroField bs)

/-- ERRCODE is NONE exactly while ERR = 0 (10_state.md R32). -/
abbrev ErrRecordLegal (s : State) : Prop := s.err = false ↔ s.errCode = .none

/-- PEND is 0 when ODD = 0 (10_state.md R36). -/
abbrev PendLegal (s : State) : Prop := s.odd = false → s.pend = 0

/-- MATCH and SHORT are results of a VALIDATE, and never both (10_state.md R29 to R31). -/
abbrev VerdictLegal (s : State) : Prop :=
  (s.matched = true → s.vdone = true) ∧ (s.short = true → s.vdone = true) ∧ ¬ (s.matched = true ∧ s.short = true)

/-- The cells of FB are in canonical form and inside the buffer (10_state.md R45). -/
abbrev FbLegal (s : State) : Prop := Memory.wf s.fb = true ∧ ∀ cell ∈ s.fb, cell.1 < frameCap s

/-- A fresh frame fits the buffer and is a valid packet (10_state.md R28, 43_frame_control.md R150). -/
abbrev FreshFrameValid (s : State) : Prop :=
  s.frameValid = true → frameLen s ≤ frameCap s ∧ ValidPacket (frame s)

/-- Every frame ever handed to the sink is a valid packet (43_frame_control.md R150, R152). -/
abbrev OutValid (s : State) : Prop := ∀ e ∈ s.out, ValidPacket e.bytes

/-- The legal states: what reset gives and every step keeps. -/
structure LegalState (s : State) : Prop where
  errRecord : ErrRecordLegal s
  pend : PendLegal s
  verdict : VerdictLegal s
  fb : FbLegal s
  fresh : FreshFrameValid s
  out : OutValid s

/-- The same ID, SEQ, ORIG, RECV, XMIT, PLEN and CAP. -/
def SameParameters (s t : State) : Prop :=
  t.ident = s.ident ∧ t.seqNum = s.seqNum ∧ t.orig = s.orig ∧ t.recv = s.recv ∧ t.xmit = s.xmit
    ∧ t.plen = s.plen ∧ t.cap = s.cap

/-- The same ACC, ODD, PEND and CSUM. -/
def SameStream (s t : State) : Prop := t.acc = s.acc ∧ t.odd = s.odd ∧ t.pend = s.pend ∧ t.csum = s.csum

/-- The same ERR and ERRCODE. -/
def SameErrors (s t : State) : Prop := t.err = s.err ∧ t.errCode = s.errCode

/-- The same VDONE, MATCH and SHORT. -/
def SameVerdict (s t : State) : Prop := t.vdone = s.vdone ∧ t.matched = s.matched ∧ t.short = s.short

/-- The same LEN and FRAME_VALID. -/
def SameFrameStatus (s t : State) : Prop := t.len = s.len ∧ t.frameValid = s.frameValid

/-- Every byte of FB reads as before. -/
def SameFb (s t : State) : Prop := ∀ k, fbByte t k = fbByte s k

/-- The outside world is as before: OUT, the sink's behaviour, the host's events and its replies. -/
def SameOutside (s t : State) : Prop :=
  t.out = s.out ∧ t.sink = s.sink ∧ t.sinkDraws = s.sinkDraws ∧ t.host = s.host ∧ t.replies = s.replies

/-- `t` is `s` after a successful build of the message with this type and this body (41_echo.md R122, R123):
the frame's bytes, its checksum, the stream left over the frame whose field is zero, LEN, a fresh
frame, and everything else as before. -/
structure BuiltFrom (type : Byte) (body : List Byte) (s t : State) : Prop where
  bytes : fbBytes t 0 (8 + body.length) = [type, 0] ++ bytes16 t.csum ++ bytes16 s.ident ++ bytes16 s.seqNum ++ body
  checksum : t.csum = csum ([type, 0, 0, 0] ++ bytes16 s.ident ++ bytes16 s.seqNum ++ body)
  streamLeft : stream t = pushBytes emptyStream ([type, 0, 0, 0] ++ bytes16 s.ident ++ bytes16 s.seqNum ++ body)
  odd : t.odd = decide ((8 + body.length) % 2 = 1)
  beyond : ∀ k, 8 + body.length ≤ k → fbByte t k = fbByte s k
  length : frameLen t = 8 + body.length
  fresh : t.frameValid = true
  parameters : SameParameters s t
  errors : SameErrors s t
  verdict : SameVerdict s t
  outside : SameOutside s t

end Sys2Proof.Machine
end

