-- ==== Sys2Proof/Certificates/Slice0/Obligations.lean ====
section
/-! DEFINITION. The statements about ICSUM16, one per obligation; each docstring names the spec text it formalises. -/

open Sys2Proof Sys2Proof.Machine

/-- Decoding an encoded command gives it back (30_encoding.md, Command word and formats; 30_encoding.md, Opcode map). -/
def Obligations.DecodeEncodeRoundTrip : Prop :=
  ∀ i : Instr, i.wellFormed = true → decode (encode i) = .instr i

/-- Each command has exactly one word (30_encoding.md, Command word and formats; 30_encoding.md, Opcode map). -/
def Obligations.EncodeDecodeRoundTrip : Prop :=
  ∀ (c : Word) (i : Instr), decode c = .instr i → encode i = c

/-- The decoder is the match and mask table, whose rows are disjoint (R73). -/
def Obligations.DecodeAgreesWithMatchMask : Prop :=
  (∀ c : Word, decodeByTable c = match decode c with
      | .instr i => some i
      | .illegal _ => none)
    ∧ ∀ c : Word, matchMaskTable.Pairwise fun r q => ¬ (r.matches c = true ∧ q.matches c = true)

/-- Exactly the words of R75 are illegal, and writing one only records ILLEGAL_CMD (R75; R202). -/
def Obligations.IllegalWordsRecordIllegalCmd : Prop :=
  (∀ c : Word, (∃ r, decode c = .illegal r) ↔
      ((0x07 ≤ (opField c).toNat ∧ (opField c).toNat ≤ 0x0F) ∨ (0x15 ≤ (opField c).toNat ∧ (opField c).toNat ≤ 0x1F)
        ∨ (0x21 ≤ (opField c).toNat ∧ (opField c).toNat ≤ 0x3E) ∨ 0x40 ≤ (opField c).toNat)
      ∨ rsvField c ≠ 0
      ∨ (opField c ≠ 0x02 ∧ opField c ≠ 0x03 ∧ immField c ≠ 0)
      ∨ (opField c = 0x03 ∧ (immField c).extractLsb' 8 8 ≠ 0))
    ∧ ∀ (s : State) (c : Word) (r : DecodeReject) (rest : List BusEvent),
      s.host = .access (.wr32 (Reg.offset .cmd) c) :: rest → decode c = .illegal r →
        step s = .next (recordError .illegalCmd { s with host := rest })

/-- Words written out from the opcode map decode to their commands (30_encoding.md, Opcode map). -/
def Obligations.DecodeExamples : Prop :=
  decode 0x00000000 = .instr .nop ∧ decode 0x02006162 = .instr (.ckAdd16 0x6162)
    ∧ decode 0x03000061 = .instr (.ckAdd8 0x61) ∧ decode 0x06000000 = .instr .validate
    ∧ decode 0x10000000 = .instr .buildEchoReq ∧ decode 0x13000000 = .instr .buildTsRep
    ∧ decode 0x20000000 = .instr .emit ∧ decode 0x3F000000 = .instr .clrErr

/-- A step whose access writes a command word to CMD is exec of the decoded command (10_state.md, Register map; 20_memory.md, Ordering). -/
def Obligations.StepRunsDecodedCommand : Prop :=
  ∀ (s : State) (c : Word) (i : Instr) (rest : List BusEvent),
    s.host = .access (.wr32 (Reg.offset .cmd) c) :: rest → decode c = .instr i →
      step s = exec i { s with host := rest }

/-- Without an event the state is held (the model's choice, log entry 6) (60_exceptions.md, Privilege and platform). -/
def Obligations.StepWithoutEventHoldsState : Prop :=
  ∀ s : State, s.host = [] → step s = .next s

/-- A legal read returns the register's value or FB[k], changes nothing, and repeats (R53). -/
def Obligations.LegalReadsReturnTheValueAndChangeNothing : Prop :=
  ∀ (s : State) (rest : List BusEvent),
    (∀ r : Reg, s.host = .access (.rd32 (Reg.offset r)) :: rest →
      step s = .next { s with host := rest, replies := s.replies ++ [.data32 (readReg r s)] })
    ∧ readReg .cmd s = 0
    ∧ (∀ k, k < frameCap s → s.host = .access (.rd8 (fbOffset k)) :: rest →
      step s = .next { s with host := rest, replies := s.replies ++ [.data8 (fbByte s k)] })
    ∧ (∀ r : Reg, s.host = .access (.rd32 (Reg.offset r)) :: .access (.rd32 (Reg.offset r)) :: rest →
      core.run 2 s = .next { s with
        host := rest, replies := s.replies ++ [.data32 (readReg r s), .data32 (readReg r s)] })
    ∧ (∀ k, k < frameCap s → s.host = .access (.rd8 (fbOffset k)) :: .access (.rd8 (fbOffset k)) :: rest →
      core.run 2 s = .next { s with
        host := rest, replies := s.replies ++ [.data8 (fbByte s k), .data8 (fbByte s k)] })

/-- The register map: where each register stands and what it reads as (10_state.md, Register map; 10_state.md, STATUS and its fields; 10_state.md, Accumulator registers; 10_state.md, Parameter registers). -/
def Obligations.RegisterReadValues : Prop :=
  (Reg.offset .cmd = 0x00 ∧ Reg.offset .status = 0x04 ∧ Reg.offset .acc = 0x08 ∧ Reg.offset .csum = 0x0C
        ∧ Reg.offset .pend = 0x10 ∧ Reg.offset .ident = 0x14 ∧ Reg.offset .seqNum = 0x18 ∧ Reg.offset .orig = 0x1C
        ∧ Reg.offset .recv = 0x20 ∧ Reg.offset .xmit = 0x24 ∧ Reg.offset .plen = 0x28 ∧ Reg.offset .len = 0x2C
        ∧ Reg.offset .cap = 0x30)
    ∧ ∀ s : State, readReg .cmd s = 0 ∧ readReg .status s = statusWord s ∧ readReg .acc s = s.acc ∧ (readReg .csum s).toNat = s.csum.toNat
      ∧ (readReg .pend s).toNat = s.pend.toNat ∧ (readReg .ident s).toNat = s.ident.toNat
      ∧ (readReg .seqNum s).toNat = s.seqNum.toNat ∧ readReg .orig s = s.orig ∧ readReg .recv s = s.recv
      ∧ readReg .xmit s = s.xmit ∧ (readReg .plen s).toNat = s.plen.toNat ∧ (readReg .len s).toNat = s.len.toNat
      ∧ (readReg .cap s).toNat = frameCap s ∧ 20 ≤ frameCap s ∧ frameCap s ≤ 65535

/-- STATUS is the concatenation of its fields, is read-only, and resets to 0 (R25). -/
def Obligations.StatusLayout : Prop :=
  (∀ s : State, (statusWord s).getLsbD 0 = s.err ∧ (statusWord s).getLsbD 1 = s.odd
        ∧ (statusWord s).getLsbD 2 = s.frameValid ∧ (statusWord s).getLsbD 3 = s.vdone
        ∧ (statusWord s).getLsbD 4 = s.matched ∧ (statusWord s).getLsbD 5 = s.short
        ∧ (statusWord s).extractLsb' 6 2 = 0 ∧ (statusWord s).extractLsb' 8 4 = errBits s.errCode
        ∧ (statusWord s).extractLsb' 12 20 = 0)
    ∧ (errBits .none = 0 ∧ errBits .illegalCmd = 1 ∧ errBits .badAccess = 2 ∧ errBits .frameOverflow = 3
        ∧ errBits .frameShort = 4 ∧ errBits .staleFrame = 5 ∧ errBits .sinkError = 6)
    ∧ statusWord State.reset = 0
    ∧ ∀ (s : State) (v : Word) (rest : List BusEvent), s.host = .access (.wr32 (Reg.offset .status) v) :: rest →
        step s = .next (recordError .badAccess { s with host := rest })

/-- What a WR32 to each register does (R54). -/
def Obligations.RegisterWrites : Prop :=
  ∀ (s : State) (v : Word) (rest : List BusEvent) (r : Reg),
    s.host = .access (.wr32 (Reg.offset r) v) :: rest →
      step s = match r with
        | .cmd => command v { s with host := rest }
        | .ident => .next { s with host := rest, ident := v.extractLsb' 0 16 }
        | .seqNum => .next { s with host := rest, seqNum := v.extractLsb' 0 16 }
        | .orig => .next { s with host := rest, orig := v }
        | .recv => .next { s with host := rest, recv := v }
        | .xmit => .next { s with host := rest, xmit := v }
        | .plen => .next { s with host := rest, plen := v.extractLsb' 0 16 }
        | .len => .next { s with host := rest, len := v.extractLsb' 0 16, frameValid := false }
        | .status | .acc | .csum | .pend | .cap => .next (recordError .badAccess { s with host := rest })

/-- Below 0x10000 only aligned 32-bit accesses to the thirteen offsets are legal (R51). -/
def Obligations.RegisterSpaceAccessLegality : Prop :=
  ∀ (s : State) (off : Word) (rest : List BusEvent), off.toNat < 0x10000 →
    ((off.toNat % 4 = 0 ∧ off.toNat ≤ 0x30) ↔ ∃ r : Reg, off = Reg.offset r)
    ∧ (¬ (off.toNat % 4 = 0 ∧ off.toNat ≤ 0x30) →
        (∀ v, s.host = .access (.wr32 off v) :: rest → step s = .next (recordError .badAccess { s with host := rest }))
        ∧ (s.host = .access (.rd32 off) :: rest →
            step s = .next (reply (.data32 0) (recordError .badAccess { s with host := rest }))))
    ∧ (∀ v, s.host = .access (.wr8 off v) :: rest → step s = .next (recordError .badAccess { s with host := rest }))
    ∧ (s.host = .access (.rd8 off) :: rest →
        step s = .next (reply (.data8 0) (recordError .badAccess { s with host := rest })))

/-- In the FB window only byte accesses below FRAME_CAP are legal (R52). -/
def Obligations.FbWindowAccessLegality : Prop :=
  ∀ (s : State) (off : Word) (rest : List BusEvent), 0x10000 ≤ off.toNat →
    (∀ v, s.host = .access (.wr32 off v) :: rest → step s = .next (recordError .badAccess { s with host := rest }))
    ∧ (s.host = .access (.rd32 off) :: rest →
        step s = .next (reply (.data32 0) (recordError .badAccess { s with host := rest })))
    ∧ (off.toNat < 0x10000 + frameCap s →
        (s.host = .access (.rd8 off) :: rest →
          step s = .next (reply (.data8 (fbByte s (off.toNat - 0x10000))) { s with host := rest }))
        ∧ ∀ v, s.host = .access (.wr8 off v) :: rest →
          ∃ t, step s = .next t ∧ fbByte t (off.toNat - 0x10000) = v)
    ∧ (0x10000 + frameCap s ≤ off.toNat →
        (∀ v, s.host = .access (.wr8 off v) :: rest → step s = .next (recordError .badAccess { s with host := rest }))
        ∧ (s.host = .access (.rd8 off) :: rest →
            step s = .next (reply (.data8 0) (recordError .badAccess { s with host := rest }))))

/-- A byte write to FB[k] stores the byte and makes the frame stale iff k < LEN (R55). -/
def Obligations.FbWriteStalesFrame : Prop :=
  ∀ (s : State) (k : Nat) (v : Byte) (rest : List BusEvent), k < frameCap s →
    s.host = .access (.wr8 (fbOffset k) v) :: rest →
      ∃ t, step s = .next t ∧ fbByte t k = v ∧ (∀ j, j ≠ k → fbByte t j = fbByte s j)
        ∧ t.frameValid = (if k < frameLen s then false else s.frameValid) ∧ t.len = s.len
        ∧ SameParameters s t ∧ SameStream s t ∧ SameErrors s t ∧ SameVerdict s t
        ∧ t.out = s.out ∧ t.sink = s.sink ∧ t.sinkDraws = s.sinkDraws ∧ t.replies = s.replies ∧ t.host = rest

/-- Raising an error sets ERR, keeps the first code and does nothing else (60_exceptions.md, Error recording; 60_exceptions.md, Error entry and return). -/
def Obligations.RaiseErrorKeepsFirstCode : Prop :=
  ∀ (c : ErrCode) (s : State),
    (s.err = false → raiseError c s = .next { s with err := true, errCode := c })
    ∧ (s.err = true → raiseError c s = .next s)

/-- A command that records an error changes nothing but the error record, an offered frame excepted (60_exceptions.md, Error recording; 60_exceptions.md, Error entry and return). -/
def Obligations.ErringCommandHasNoOtherEffect : Prop :=
  ∀ (i : Instr) (s t : State), exec i s = .next t → s.err = false → t.err = true →
    t = recordError t.errCode s
      ∨ (i = .emit ∧ t = recordError .sinkError (appendOut ⟨frame s, .error⟩ (consumeSink s)))

/-- While ERR = 1 only CLR_ERR and reset change the error record (60_exceptions.md, Error entry and return; 10_state.md, STATUS and its fields). -/
def Obligations.ErrorRecordClearedOnlyByClrErrOrReset : Prop :=
  ∀ s t : State, step s = .next t → s.err = true → ¬ NextEvent .reset s → nextCommand s ≠ some .clrErr →
    t.err = true ∧ t.errCode = s.errCode

/-- FRAME_OVERFLOW comes before FRAME_SHORT and STALE_FRAME, FRAME_SHORT is only RESUM's (60_exceptions.md, Error codes; 60_exceptions.md, Priority). -/
def Obligations.OverflowPrecedesOtherErrors : Prop :=
  (∀ s : State,
      (frameLen s > frameCap s → ∀ i ∈ [Instr.ckBuf, .validate, .resum, .emit],
        exec i s = .next (recordError .frameOverflow s))
      ∧ (frameLen s ≤ frameCap s → frameLen s < 4 → exec .resum s = .next (recordError .frameShort s))
      ∧ (frameLen s ≤ frameCap s → s.frameValid = false → exec .emit s = .next (recordError .staleFrame s))
      ∧ (echoLen s > frameCap s → ∀ i ∈ [Instr.buildEchoReq, .buildEchoRep],
        exec i s = .next (recordError .frameOverflow s)))
    ∧ (∀ (i : Instr) (s t : State), i ≠ .resum → exec i s = .next t → t.errCode = .frameShort → s.errCode = .frameShort)
    ∧ ∀ s t : State, step s = .next t → nextCommand s ≠ some .resum → t.errCode = .frameShort → s.errCode = .frameShort

/-- Reset zeroes every register but CAP and keeps OUT (OUT empty at first, sink and replies kept: the model's choice, log entries 8, 9) (70_reset_and_hazards.md, Reset; 10_state.md, Inventory). -/
def Obligations.ResetWritesEveryRegister : Prop :=
  (∀ (s : State) (rest : List BusEvent), s.host = .reset :: rest →
      ∃ t, step s = .next t ∧ statusWord t = 0 ∧ t.errCode = .none ∧ t.acc = 0 ∧ t.csum = 0 ∧ t.pend = 0
        ∧ t.ident = 0 ∧ t.seqNum = 0 ∧ t.orig = 0 ∧ t.recv = 0 ∧ t.xmit = 0 ∧ t.plen = 0 ∧ t.len = 0
        ∧ t.cap = s.cap ∧ t.out = s.out ∧ t.host = rest ∧ t.sink = s.sink ∧ t.sinkDraws = s.sinkDraws ∧ t.replies = s.replies)
    ∧ (statusWord State.reset = 0 ∧ State.reset.acc = 0 ∧ State.reset.csum = 0 ∧ State.reset.pend = 0
        ∧ State.reset.ident = 0 ∧ State.reset.seqNum = 0 ∧ State.reset.orig = 0 ∧ State.reset.recv = 0
        ∧ State.reset.xmit = 0 ∧ State.reset.plen = 0 ∧ State.reset.len = 0 ∧ State.reset.out = [])

/-- The words of a byte sequence are its big-endian pairs, an odd last byte padded with zero (40_checksum.md, Arithmetic). -/
def Obligations.WordsPartitionBigEndian : Prop :=
  ∀ bs : List Byte, (words bs).length = (bs.length + 1) / 2
    ∧ ∀ i, i < (words bs).length → (words bs)[i]? = some (bs.getD (2 * i) 0 ++ bs.getD (2 * i + 1) 0)

/-- acc_add is the 33-bit sum with end-around carry, and plain addition up to 65537 words (R101). -/
def Obligations.AccAddIsEndAroundCarry : Prop :=
  (∀ (a : Word) (w : Half), accAdd a w =
        if (a.setWidth 33 + w.setWidth 33).getLsbD 32 then (a.setWidth 33 + w.setWidth 33).setWidth 32 + 1
        else (a.setWidth 33 + w.setWidth 33).setWidth 32)
    ∧ (∀ (a : Word) (w : Half), (a.setWidth 33 + w.setWidth 33).getLsbD 32 = true →
        ((a.setWidth 33 + w.setWidth 33).setWidth 32).toNat ≤ 0xFFFE)
    ∧ ∀ ws : List Half, ws.length ≤ 65537 → (total ws).toNat = (ws.map BitVec.toNat).sum

/-- fold16 stops after at most two passes, at the residue modulo 0xFFFF (R102). -/
def Obligations.FoldSixteenIsResidue : Prop :=
  ∀ a : Word, (∀ n, 2 ≤ n → foldLoop n a.toNat = (fold16 a).toNat)
    ∧ (∀ s, foldStep s = (s &&& 0xFFFF) + (s >>> 16)) ∧ foldStep a.toNat ≤ 0x1FFFE
    ∧ ((fold16 a).toNat = 0 ↔ a.toNat = 0)
    ∧ (a.toNat ≠ 0 → ∀ r, (1 ≤ r ∧ r ≤ 0xFFFF ∧ r % 0xFFFF = a.toNat % 0xFFFF) ↔ r = (fold16 a).toNat)

/-- The checksum is the complement of the folded total (R103). -/
def Obligations.ChecksumIsComplementOfFoldedTotal : Prop :=
  (∀ bs : List Byte, csum bs = 0xFFFF - fold16 ((words bs).foldl accAdd 0))
    ∧ (∀ h : Half, 0xFFFF - h = ~~~h) ∧ csum [] = 0xFFFF

/-- The 32-bit engine computes the RFC 1071 checksum of every byte sequence, of any length (R104). -/
def Obligations.ChecksumIsOnesComplementOfUnboundedSum : Prop :=
  ∀ (bs : List Byte) (n : Nat), ((words bs).map BitVec.toNat).sum ≤ n →
    foldLoop n ((words bs).map BitVec.toNat).sum ≤ 0xFFFF
      ∧ csum bs = 0xFFFF - BitVec.ofNat 16 (foldLoop n ((words bs).map BitVec.toNat).sum)

/-- Word order, zero sequences and appended zeros (40_checksum.md, Arithmetic). -/
def Obligations.ChecksumLaws : Prop :=
  (∀ ws vs : List Half, ws.Perm vs → total ws = total vs)
    ∧ (∀ ws : List Half, (ws.map BitVec.toNat).sum ≠ 0 → 1 ≤ (total ws).toNat
        ∧ (total ws).toNat % 0xFFFFFFFF = (ws.map BitVec.toNat).sum % 0xFFFFFFFF)
    ∧ (∀ ws : List Half, total ws = 0 ↔ ∀ w ∈ ws, w = 0)
    ∧ (∀ bs : List Byte, csum bs = 0xFFFF ↔ ∀ b ∈ bs, b = 0)
    ∧ (∀ bs : List Byte, csum bs = 0 → ∃ b ∈ bs, b ≠ 0)
    ∧ (∀ bs : List Byte, bs.length % 2 = 1 → csum (bs ++ [0]) = csum bs)
    ∧ (∀ bs : List Byte, csum (bs ++ [0, 0]) = csum bs)

/-- NOP does nothing (R155). -/
def Obligations.NopChangesNothing : Prop :=
  OnlyWord 0x00 0x00000000 .nop ∧ ∀ s : State, exec .nop s = .next s

/-- CK_CLEAR empties the stream and changes nothing else (R106). -/
def Obligations.CkClearEmptiesStream : Prop :=
  OnlyWord 0x01 0x01000000 .ckClear
    ∧ (∀ s : State, exec .ckClear s = .next { s with acc := 0, odd := false, pend := 0 })
    ∧ ∀ s : State, s.acc = 0 → s.odd = false → s.pend = 0 → exec .ckClear s = .next s

/-- CK_ADD16 w pushes w[15:8] and then w[7:0] (R107). -/
def Obligations.CkAddSixteenPushesTwoBytes : Prop :=
  (∀ w : Half, decode (0x02000000 ||| w.setWidth 32) = .instr (.ckAdd16 w))
    ∧ (∀ c : Word, opField c = 0x02 → rsvField c ≠ 0 → ∃ r, decode c = .illegal r)
    ∧ ∀ (w : Half) (s : State),
      exec (.ckAdd16 w) s = execAll [.ckAdd8 (w.extractLsb' 8 8), .ckAdd8 (w.extractLsb' 0 8)] s
      ∧ (s.odd = false → exec (.ckAdd16 w) s = .next { s with acc := accAdd s.acc w, pend := 0 })
      ∧ (s.odd = true → exec (.ckAdd16 w) s =
          .next { s with acc := accAdd s.acc (s.pend ++ w.extractLsb' 8 8), pend := w.extractLsb' 0 8 })

/-- CK_ADD8 b pushes one byte (R108). -/
def Obligations.CkAddEightPushesOneByte : Prop :=
  (∀ b : Byte, decode (0x03000000 ||| b.setWidth 32) = .instr (.ckAdd8 b))
    ∧ (∀ c : Word, opField c = 0x03 → (rsvField c ≠ 0 ∨ (immField c).extractLsb' 8 8 ≠ 0) → ∃ r, decode c = .illegal r)
    ∧ ∀ (b : Byte) (s : State),
      (s.odd = false → exec (.ckAdd8 b) s = .next { s with pend := b, odd := true })
      ∧ (s.odd = true → exec (.ckAdd8 b) s =
          .next { s with acc := accAdd s.acc (s.pend ++ b), pend := 0, odd := false })

/-- CK_FINAL writes the padded, folded, complemented stream into CSUM and keeps the stream (R109). -/
def Obligations.CkFinalWritesChecksumOnly : Prop :=
  OnlyWord 0x04 0x04000000 .ckFinal
    ∧ (∀ s : State, exec .ckFinal s = .next { s with
        csum := 0xFFFF - fold16 (if s.odd = true then accAdd s.acc (s.pend ++ (0x00 : Byte)) else s.acc) })
    ∧ (∀ s : State, s.acc = 0 → s.odd = false → exec .ckFinal s = .next { s with csum := 0xFFFF })
    ∧ ∀ s : State, s.acc = 0xFFFFFFFF → s.odd = false → exec .ckFinal s = .next { s with csum := 0x0000 }

/-- CK_BUF leaves the stream state and the checksum of the frame, and nothing else (R110). -/
def Obligations.CkBufChecksumsFrame : Prop :=
  OnlyWord 0x05 0x05000000 .ckBuf
    ∧ (∀ s : State, frameLen s ≤ frameCap s → exec .ckBuf s = .next { s with
        acc := (pushBytes emptyStream (frame s)).acc, odd := decide (frameLen s % 2 = 1),
        pend := (pushBytes emptyStream (frame s)).pend, csum := csum (frame s) })
    ∧ (∀ s : State, frameLen s = 0 → exec .ckBuf s = .next { s with
        acc := 0, odd := false, pend := 0, csum := 0xFFFF })
    ∧ ∀ s : State, frameLen s > frameCap s → exec .ckBuf s = .next (recordError .frameOverflow s)

/-- VALIDATE compares the stored checksum with the recomputed one and reports it in STATUS (R111). -/
def Obligations.ValidateComparesStoredChecksum : Prop :=
  OnlyWord 0x06 0x06000000 .validate
    ∧ (∀ s : State, frameLen s > frameCap s → exec .validate s = .next (recordError .frameOverflow s))
    ∧ (∀ s : State, frameLen s ≤ frameCap s → frameLen s < 4 → exec .validate s = .next { s with
        vdone := true, matched := false, short := true, frameValid := false })
    ∧ (∀ s : State, frameLen s ≤ frameCap s → 4 ≤ frameLen s → exec .validate s = .next { s with
        acc := (pushBytes emptyStream (zeroedView s (frameLen s))).acc, odd := decide (frameLen s % 2 = 1),
        pend := (pushBytes emptyStream (zeroedView s (frameLen s))).pend,
        csum := csum (zeroedView s (frameLen s)), vdone := true, short := false,
        matched := decide (csum (zeroedView s (frameLen s)) = fbByte s 2 ++ fbByte s 3),
        frameValid := decide (csum (zeroedView s (frameLen s)) = fbByte s 2 ++ fbByte s 3) })
    ∧ ∀ s : State, frameLen s ≤ frameCap s → 4 ≤ frameLen s → (∀ k, k < frameLen s → fbByte s k = 0) →
        ∃ t, exec .validate s = .next t ∧ t.matched = false

/-- BUILD_ECHO_REQ builds the Echo Request of ID, SEQ and the payload in FB (R124). -/
def Obligations.BuildEchoReqMakesFrame : Prop :=
  OnlyWord 0x10 0x10000000 .buildEchoReq
    ∧ (∀ s : State, echoLen s ≤ frameCap s →
        ∃ t, exec .buildEchoReq s = .next t ∧ BuiltFrom 8 (fbBytes s 8 s.plen.toNat) s t)
    ∧ ∀ s : State, echoLen s > frameCap s → exec .buildEchoReq s = .next (recordError .frameOverflow s)

/-- BUILD_ECHO_REP builds the Echo Reply of ID, SEQ and the payload in FB (R125). -/
def Obligations.BuildEchoRepMakesFrame : Prop :=
  OnlyWord 0x11 0x11000000 .buildEchoRep
    ∧ (∀ s : State, echoLen s ≤ frameCap s →
        ∃ t, exec .buildEchoRep s = .next t ∧ BuiltFrom 0 (fbBytes s 8 s.plen.toNat) s t)
    ∧ ∀ s : State, echoLen s > frameCap s → exec .buildEchoRep s = .next (recordError .frameOverflow s)
    ∧ ∀ s : State, s.ident = 0 → s.seqNum = 0 → s.plen = 0 →
        ∃ t, exec .buildEchoRep s = .next t ∧ t.csum = 0xFFFF

/-- BUILD_TS_REQ builds the Timestamp Request of ID, SEQ, ORIG, RECV and XMIT (R141). -/
def Obligations.BuildTsReqMakesFrame : Prop :=
  OnlyWord 0x12 0x12000000 .buildTsReq
    ∧ ∀ s : State, ∃ t, exec .buildTsReq s = .next t
        ∧ BuiltFrom 13 (bytes32 s.orig ++ bytes32 s.recv ++ bytes32 s.xmit) s t
        ∧ frameLen t = 20 ∧ t.odd = false ∧ t.pend = 0

/-- BUILD_TS_REP builds the Timestamp Reply of ID, SEQ, ORIG, RECV and XMIT (R142). -/
def Obligations.BuildTsRepMakesFrame : Prop :=
  OnlyWord 0x13 0x13000000 .buildTsRep
    ∧ ∀ s : State, ∃ t, exec .buildTsRep s = .next t
        ∧ BuiltFrom 14 (bytes32 s.orig ++ bytes32 s.recv ++ bytes32 s.xmit) s t
        ∧ frameLen t = 20 ∧ t.odd = false ∧ t.pend = 0

/-- RESUM recomputes the frame's checksum and writes it to FB[2 .. 3], nothing else (R151). -/
def Obligations.ResumPatchesChecksum : Prop :=
  OnlyWord 0x14 0x14000000 .resum
    ∧ (∀ s : State, 4 ≤ frameLen s → frameLen s ≤ frameCap s →
        ∃ t, exec .resum s = .next t ∧ t.csum = csum (zeroedView s (frameLen s))
          ∧ fbByte t 2 ++ fbByte t 3 = t.csum ∧ (∀ k, k ≠ 2 → k ≠ 3 → fbByte t k = fbByte s k)
          ∧ stream t = pushBytes emptyStream (zeroedView s (frameLen s)) ∧ t.odd = decide (frameLen s % 2 = 1)
          ∧ t.len = s.len ∧ t.frameValid = true ∧ SameParameters s t ∧ SameErrors s t ∧ SameVerdict s t
          ∧ SameOutside s t ∧ (ValidPacket (frame s) → SameFb s t))
    ∧ (∀ s : State, LegalState s → s.frameValid = true →
        ∃ t, exec .resum s = .next t ∧ SameFb s t ∧ SameFrameStatus s t)
    ∧ (∀ s : State, frameLen s > frameCap s → exec .resum s = .next (recordError .frameOverflow s))
    ∧ ∀ s : State, frameLen s ≤ frameCap s → frameLen s < 4 → exec .resum s = .next (recordError .frameShort s)

/-- EMIT of a fresh frame appends the attempt to OUT and changes no block state but for SINK_ERROR (R152). -/
def Obligations.EmitHandsFrameToSink : Prop :=
  OnlyWord 0x20 0x20000000 .emit
    ∧ (∀ (s : State) (a : SinkAnswer), frameLen s ≤ frameCap s → s.frameValid = true → sinkAnswer s = some a →
        exec .emit s = .next (match a with
          | .ok => { s with
              out := s.out ++ [⟨frame s, .ok⟩], sink := (consumeSink s).sink, sinkDraws := (consumeSink s).sinkDraws }
          | .error => recordError .sinkError { s with
              out := s.out ++ [⟨frame s, .error⟩], sink := (consumeSink s).sink,
              sinkDraws := (consumeSink s).sinkDraws }))
    ∧ (∀ s : State, frameLen s > frameCap s → exec .emit s = .next (recordError .frameOverflow s))
    ∧ ∀ s : State, frameLen s ≤ frameCap s → s.frameValid = false → exec .emit s = .next (recordError .staleFrame s)

/-- CLR_ERR clears the error record and nothing else (R156). -/
def Obligations.ClrErrClearsErrorRecord : Prop :=
  OnlyWord 0x3F 0x3F000000 .clrErr
    ∧ (∀ s : State, exec .clrErr s = .next { s with err := false, errCode := .none })
    ∧ (∀ s : State, s.err = false → s.errCode = .none → exec .clrErr s = .next s)
    ∧ ∀ (s : State) (c : Word), opField c = 0x3F → c ≠ 0x3F000000 → ∃ t, command c s = .next t ∧ t.err = true

/-- Two EMITs with nothing between them that changes the frame hand the sink the same bytes (43_frame_control.md, EMIT). -/
def Obligations.EmitTwiceEmitsSameBytes : Prop :=
  (∀ (s : State) (a b : SinkAnswer), frameLen s ≤ frameCap s → s.frameValid = true →
        sinkAnswer s = some a → sinkAnswer (consumeSink s) = some b →
          ∃ t, execAll [.emit, .emit] s = .next t ∧ t.out = s.out ++ [⟨frame s, a⟩, ⟨frame s, b⟩]
            ∧ t.sink = (consumeSink (consumeSink s)).sink ∧ t.sinkDraws = (consumeSink (consumeSink s)).sinkDraws
            ∧ SameFb s t ∧ SameFrameStatus s t ∧ SameParameters s t ∧ SameStream s t)
    ∧ ∀ (s t : State) (between rest : List BusEvent), LegalState s → s.frameValid = true →
        (∀ e ∈ between, LeavesFrame s e) →
        s.host = .access (.wr32 (Reg.offset .cmd) 0x20000000) :: between
          ++ .access (.wr32 (Reg.offset .cmd) 0x20000000) :: rest →
        core.run (between.length + 2) s = .next t →
          ∃ (a b : SinkAnswer) (mid : List OutEntry), t.out = s.out ++ ⟨frame s, a⟩ :: mid ++ [⟨frame s, b⟩]
            ∧ (∀ o ∈ mid, o.bytes = frame s) ∧ t.host = rest ∧ SameFb s t ∧ SameFrameStatus s t

/-- EMIT of a fresh frame stops when the sink never answers, and only then (70_reset_and_hazards.md, Timing; 43_frame_control.md, EMIT). -/
def Obligations.EmitIsStuckWhenSinkNeverAnswers : Prop :=
  ∀ (i : Instr) (s : State), (∃ f, exec i s = .fault f) ↔
    (i = .emit ∧ frameLen s ≤ frameCap s ∧ s.frameValid = true ∧ sinkAnswer s = none)

/-- Every command but EMIT completes in one transition, and no command is refused (70_reset_and_hazards.md, Timing). -/
def Obligations.EveryCommandButEmitCompletes : Prop :=
  (∀ (i : Instr) (s : State), i ≠ .emit → ∃ t, exec i s = .next t)
    ∧ (∀ (s : State) (a : SinkAnswer), sinkAnswer s = some a → ∃ t, exec .emit s = .next t)
    ∧ ∀ s : State, (∃ t, step s = .next t) ∨ (step s = .fault .sinkNeverAnswers ∧ nextCommand s = some .emit)

/-- A streamed checksum, pushed in any mixture of bytes and words, is the checksum of the bytes; CK_BUF agrees (R112). -/
def Obligations.StreamLaw : Prop :=
  ∀ (s : State) (is : List Instr) (bs : List Byte), pushedAll is = some bs →
    ∃ t, execAll (.ckClear :: is ++ [.ckFinal]) s = .next t ∧ t.csum = csum bs
      ∧ t.odd = decide (bs.length % 2 = 1) ∧ t.acc = total (words (bs.take (2 * (bs.length / 2))))
      ∧ t.pend = (if bs.length % 2 = 1 then bs.getD (bs.length - 1) 0 else 0)
      ∧ ∀ u : State, frameLen u ≤ frameCap u → frame u = bs →
        ∃ v, exec .ckBuf u = .next v ∧ v.csum = t.csum ∧ v.odd = t.odd ∧ v.acc = t.acc ∧ v.pend = t.pend

/-- VALIDATE right after a successful BUILD or RESUM matches (40_checksum.md, Laws of the commands; 41_echo.md, Payload and laws). -/
def Obligations.SealedFrameValidates : Prop :=
  ∀ (i : Instr) (s : State), SealSucceeds i s →
    ∃ t, execAll [i, .validate] s = .next t ∧ t.vdone = true ∧ t.matched = true ∧ t.short = false
      ∧ t.frameValid = true ∧ SameErrors s t ∧ t.csum = fbByte t 2 ++ fbByte t 3

/-- Changing one byte of a valid frame outside its checksum field makes VALIDATE mismatch (40_checksum.md, Laws of the commands). -/
def Obligations.CorruptedByteMismatches : Prop :=
  ∀ (s : State) (k : Nat) (v : Byte) (rest : List BusEvent), LegalState s → s.frameValid = true →
    k < frameLen s → k ≠ 2 → k ≠ 3 → v ≠ fbByte s k →
    s.host = .access (.wr8 (fbOffset k) v) :: .access (.wr32 (Reg.offset .cmd) 0x06000000) :: rest →
      ∃ t : State, core.run 2 s = .next t ∧ t.vdone = true ∧ t.matched = false ∧ t.short = false
        ∧ t.frameValid = false ∧ SameErrors s t

/-- A big-endian field of FB reads back as written (00_scope.md, Notation; 20_memory.md, Byte order). -/
def Obligations.MemReadAfterMemWrite : Prop :=
  ∀ (s : State) (k : Nat),
    (∀ v : Half, memRead16 (fbStore k (bytes16 v) s) k = v
      ∧ fbByte (fbStore k (bytes16 v) s) k = v.extractLsb' 8 8)
    ∧ (∀ v : Word, memRead32 (fbStore k (bytes32 v) s) k = v
      ∧ fbByte (fbStore k (bytes32 v) s) k = v.extractLsb' 24 8)
    ∧ ∀ (bs : List Byte) (j : Nat), ¬ (k ≤ j ∧ j < k + bs.length) → fbByte (fbStore k bs s) j = fbByte s j

/-- Each BUILD command emits its own type and code 0, for every ID and SEQ (41_echo.md, Payload and laws; 41_echo.md, Echo wire layout; 42_timestamp.md, Timestamp wire layout). -/
def Obligations.VariantTypes : Prop :=
  ∀ (i : Instr) (type : Byte) (s t : State),
    (i, type) ∈ [(Instr.buildEchoReq, (8 : Byte)), (.buildEchoRep, 0), (.buildTsReq, 13), (.buildTsRep, 14)] →
    SealSucceeds i s → exec i s = .next t →
      fbByte t 0 = type ∧ fbByte t 1 = 0 ∧ fbByte t 4 ++ fbByte t 5 = s.ident ∧ fbByte t 6 ++ fbByte t 7 = s.seqNum

/-- The reset state is legal (its empty OUT is the model's choice, log entry 8) (70_reset_and_hazards.md, Reset; 10_state.md, STATUS and its fields). -/
def Obligations.ResetStateIsLegal : Prop :=
  LegalState State.reset

/-- Every step keeps the legal states: a fresh frame always carries its own checksum, and only valid packets reach the sink (43_frame_control.md, Frame lifecycle; 10_state.md, STATUS and its fields; 20_memory.md, Access rules). -/
def Obligations.StepKeepsLegalState : Prop :=
  ∀ s t : State, LegalState s → step s = .next t → LegalState t

/-- Only BUILD, RESUM and a matching VALIDATE make a frame fresh; only four events make it stale (43_frame_control.md, Frame lifecycle; 10_state.md, STATUS and its fields). -/
def Obligations.FreshnessTransitions : Prop :=
  ∀ s t : State, step s = .next t →
    (s.frameValid = false → t.frameValid = true →
      (∃ i ∈ [Instr.buildEchoReq, .buildEchoRep, .buildTsReq, .buildTsRep, .resum], nextCommand s = some i)
      ∨ (nextCommand s = some .validate ∧ t.matched = true))
    ∧ (s.frameValid = true → t.frameValid = false →
      NextEvent .reset s ∨ (∃ v, NextEvent (.access (.wr32 (Reg.offset .len) v)) s)
      ∨ (∃ k v, k < frameLen s ∧ NextEvent (.access (.wr8 (fbOffset k) v)) s)
      ∨ (nextCommand s = some .validate ∧ t.matched = false))

/-- OUT only grows, by one EMIT of a fresh frame at a time (10_state.md, Observation outside the block; 20_memory.md, Ordering; 43_frame_control.md, EMIT). -/
def Obligations.OutGrowsOnlyByEmitOfFreshFrame : Prop :=
  ∀ s t : State, step s = .next t →
    t.out = s.out ∨ (nextCommand s = some .emit ∧ s.frameValid = true ∧ frameLen s ≤ frameCap s
      ∧ ∃ a, sinkAnswer s = some a ∧ t.out = s.out ++ [⟨frame s, a⟩])

/-- VDONE, MATCH and SHORT change only by VALIDATE and reset (10_state.md, STATUS and its fields; 10_state.md, Flags and hidden state). -/
def Obligations.VerdictWrittenOnlyByValidate : Prop :=
  ∀ s t : State, step s = .next t → ¬ NextEvent .reset s →
    (nextCommand s ≠ some .validate → SameVerdict s t) ∧ (s.vdone = true → t.vdone = true)

/-- ACC, ODD, PEND and CSUM change only by their commands and reset (10_state.md, Accumulator registers; 10_state.md, Flags and hidden state). -/
def Obligations.StreamWritersOnly : Prop :=
  ∀ s t : State, step s = .next t → ¬ NextEvent .reset s →
    ((t.acc ≠ s.acc ∨ t.odd ≠ s.odd ∨ t.pend ≠ s.pend) →
      nextCommand s = some .ckClear ∨ (∃ w, nextCommand s = some (.ckAdd16 w)) ∨ (∃ b, nextCommand s = some (.ckAdd8 b))
      ∨ (nextCommand s = some .validate ∧ 4 ≤ frameLen s)
      ∨ ∃ i ∈ [Instr.ckBuf, .resum, .buildEchoReq, .buildEchoRep, .buildTsReq, .buildTsRep], nextCommand s = some i)
    ∧ (t.csum ≠ s.csum →
      (nextCommand s = some .validate ∧ 4 ≤ frameLen s)
      ∨ ∃ i ∈ [Instr.ckFinal, .ckBuf, .resum, .buildEchoReq, .buildEchoRep, .buildTsReq, .buildTsRep],
        nextCommand s = some i)

/-- No command writes a parameter register, CAP, the host's events or its replies, and only BUILD writes LEN (10_state.md, Parameter registers; 10_state.md, Observation outside the block). -/
def Obligations.CommandsKeepParametersAndEnvironment : Prop :=
  ∀ (i : Instr) (s t : State), exec i s = .next t →
    SameParameters s t ∧ t.host = s.host ∧ t.replies = s.replies
    ∧ (i ∉ [Instr.buildEchoReq, .buildEchoRep, .buildTsReq, .buildTsRep] → t.len = s.len)
    ∧ (i ≠ .emit → t.out = s.out ∧ t.sink = s.sink ∧ t.sinkDraws = s.sinkDraws)

/-- A byte of FB changes only by a host write to it, a BUILD or RESUM inside its range, or reset (10_state.md, Frame buffer). -/
def Obligations.FbWrittenOnlyWhereStated : Prop :=
  ∀ (s t : State) (k : Nat), step s = .next t → ¬ NextEvent .reset s → fbByte t k ≠ fbByte s k →
    (∃ v, NextEvent (.access (.wr8 (fbOffset k) v)) s)
    ∨ ((nextCommand s = some .buildEchoReq ∨ nextCommand s = some .buildEchoRep) ∧ k < 8)
    ∨ ((nextCommand s = some .buildTsReq ∨ nextCommand s = some .buildTsRep) ∧ k < 20)
    ∨ (nextCommand s = some .resum ∧ (k = 2 ∨ k = 3))

/-- No step changes CAP, and a write to it is BAD_ACCESS (R44). -/
def Obligations.CapIsHardwired : Prop :=
  (∀ s t : State, step s = .next t → t.cap = s.cap) ∧ (∀ s : State, 20 ≤ frameCap s ∧ frameCap s ≤ 65535 ∧ (readReg .cap s).toNat = frameCap s)
    ∧ ∀ (s : State) (v : Word) (rest : List BusEvent), s.host = .access (.wr32 (Reg.offset .cap) v) :: rest →
        step s = .next (recordError .badAccess { s with host := rest })

/-- CK_CLEAR, CK_ADD16, CK_ADD8 and CK_FINAL change only the stream or CSUM (40_checksum.md, The stream; 10_state.md, Flags and hidden state). -/
def Obligations.StreamCommandsFrame : Prop :=
  ∀ s t : State,
    ((∃ i, (i = .ckClear ∨ (∃ w, i = .ckAdd16 w) ∨ ∃ b, i = .ckAdd8 b) ∧ exec i s = .next t) →
      t.csum = s.csum ∧ SameErrors s t ∧ SameVerdict s t ∧ SameFrameStatus s t ∧ SameParameters s t ∧ SameFb s t
        ∧ SameOutside s t)
    ∧ (exec .ckFinal s = .next t →
      stream t = stream s ∧ SameErrors s t ∧ SameVerdict s t ∧ SameFrameStatus s t ∧ SameParameters s t
        ∧ SameFb s t ∧ SameOutside s t)

/-- CK_BUF, VALIDATE and EMIT store no byte; what each leaves unchanged (40_checksum.md, The stream; 43_frame_control.md, EMIT; 10_state.md, Flags and hidden state). -/
def Obligations.FrameReadersFrame : Prop :=
  ∀ s t : State,
    (exec .ckBuf s = .next t → SameFb s t ∧ SameParameters s t ∧ SameFrameStatus s t ∧ SameVerdict s t
      ∧ SameOutside s t ∧ (frameLen s ≤ frameCap s → SameErrors s t))
    ∧ (exec .validate s = .next t → SameFb s t ∧ SameParameters s t ∧ t.len = s.len ∧ SameOutside s t
      ∧ (frameLen s ≤ frameCap s → SameErrors s t))
    ∧ (exec .emit s = .next t → SameFb s t ∧ SameParameters s t ∧ SameFrameStatus s t ∧ SameStream s t
      ∧ SameVerdict s t ∧ t.host = s.host ∧ t.replies = s.replies)

/-- What the BUILD commands and RESUM leave unchanged, byte by byte (41_echo.md, The build procedure; 43_frame_control.md, RESUM). -/
def Obligations.FrameWritersFrame : Prop :=
  ∀ (i : Instr) (n0 n1 : Nat) (s t : State),
    (i, n0, n1) ∈ [(Instr.buildEchoReq, 0, 8), (.buildEchoRep, 0, 8), (.buildTsReq, 0, 20), (.buildTsRep, 0, 20),
      (.resum, 2, 4)] → exec i s = .next t →
      SameParameters s t ∧ SameVerdict s t ∧ SameOutside s t ∧ (SealSucceeds i s → SameErrors s t)
      ∧ ∀ k, ¬ (n0 ≤ k ∧ k < n1) → fbByte t k = fbByte s k

/-- Each statement and pseudo-instruction of the assembler: its accesses, and an operand that does not fit its field is an error (30_encoding.md, Assembler syntax). -/
def Obligations.AssemblerRejectsOversizedOperands : Prop :=
  (∀ (r : Reg) (v : Nat), Stmt.assemble (.wr r v) =
        if v < 2 ^ 32 then some (.wr32 (Reg.offset r) (BitVec.ofNat 32 v)) else none)
    ∧ (∀ r : Reg, Stmt.assemble (.rd r) = some (.rd32 (Reg.offset r)))
    ∧ (∀ k b : Nat, Stmt.assemble (.fb k b) =
        if 0x10000 + k < 2 ^ 32 ∧ b < 256 then some (.wr8 (BitVec.ofNat 32 (0x10000 + k)) (BitVec.ofNat 8 b)) else none)
    ∧ (∀ k : Nat, Stmt.assemble (.fbrd k) =
        if 0x10000 + k < 2 ^ 32 then some (.rd8 (BitVec.ofNat 32 (0x10000 + k))) else none)
    ∧ (∀ row ∈ ([(.nop, 0x00000000), (.ckClear, 0x01000000), (.ckFinal, 0x04000000), (.ckBuf, 0x05000000),
          (.validate, 0x06000000), (.buildEchoReq, 0x10000000), (.buildEchoRep, 0x11000000), (.buildTsReq, 0x12000000),
          (.buildTsRep, 0x13000000), (.resum, 0x14000000), (.emit, 0x20000000),
          (.clrErr, 0x3F000000)] : List (Instr × Word)),
        Stmt.assemble (.f0 row.1) = some (.wr32 0x00 row.2))
    ∧ ((∀ w, Stmt.assemble (.f0 (.ckAdd16 w)) = none) ∧ ∀ b, Stmt.assemble (.f0 (.ckAdd8 b)) = none)
    ∧ (∀ b : Nat, Stmt.assemble (.ckAdd8 b) =
        if b < 256 then some (.wr32 0x00 (BitVec.ofNat 32 (0x03000000 + b))) else none)
    ∧ (∀ w : Nat, Stmt.assemble (.ckAdd16 w) =
        if w < 65536 then some (.wr32 0x00 (BitVec.ofNat 32 (0x02000000 + w))) else none)
    ∧ (∀ c : Nat, Stmt.assemble (.cmd c) = if c < 2 ^ 32 then some (.wr32 0x00 (BitVec.ofNat 32 c)) else none)
    ∧ (∀ (ts : List Stmt) (us : List HostAccess), assembleAll ts = some us ↔ ts.map Stmt.assemble = us.map some)
    ∧ (∀ (k : Nat) (bs : List Nat),
        Pseudo.expand (.fbBytes k bs) = (List.range bs.length).map fun j => .fb (k + j) (bs.getD j 0))
    ∧ (∀ bs : List Nat, Pseudo.expand (.ckBytes bs) = bs.map .ckAdd8)
    ∧ (∀ v : Nat, v < 2 ^ 32 → Pseudo.expand (.ckAdd32 v) =
        [.ckAdd16 ((BitVec.ofNat 32 v).extractLsb' 16 16).toNat, .ckAdd16 ((BitVec.ofNat 32 v).extractLsb' 0 16).toNat])
    ∧ (∀ v : Nat, 2 ^ 32 ≤ v → assembleAll (Pseudo.expand (.ckAdd32 v)) = none)
    ∧ (∀ bs : List Nat, Pseudo.expand (.payload bs) = Pseudo.expand (.fbBytes 8 bs) ++ [.wr .plen bs.length])
    ∧ (∀ bs : List Nat, Pseudo.expand (.frame bs) = Pseudo.expand (.fbBytes 0 bs) ++ [.wr .len bs.length])
    ∧ (∀ i q : Nat, Pseudo.expand (.echoReq i q) = [.wr .ident i, .wr .seqNum q, .f0 .buildEchoReq])
    ∧ (∀ i q : Nat, Pseudo.expand (.echoRep i q) = [.wr .ident i, .wr .seqNum q, .f0 .buildEchoRep])
    ∧ (∀ i q o r t : Nat, Pseudo.expand (.tsReq i q o r t) =
        [.wr .ident i, .wr .seqNum q, .wr .orig o, .wr .recv r, .wr .xmit t, .f0 .buildTsReq])
    ∧ ∀ i q o r t : Nat, Pseudo.expand (.tsRep i q o r t) =
        [.wr .ident i, .wr .seqNum q, .wr .orig o, .wr .recv r, .wr .xmit t, .f0 .buildTsRep]
end

