-- ==== Sys2Proof/Laws/Arith.lean ====
section
/-! SUPPORT. The checksum arithmetic: what acc_add and folding do to the value modulo 0xFFFFFFFF and 0xFFFF, and that the stream's pairing gives the partition of the whole sequence (40_checksum.md R100 to R105, R112). -/

namespace Sys2Proof.Machine

/-! ### acc_add -/

theorem accAdd_toNat (a : Word) (w : Half) :
    (accAdd a w).toNat = if a.toNat + w.toNat < 2 ^ 32 then a.toNat + w.toNat else a.toNat + w.toNat - 2 ^ 32 + 1 := by
  have ha := a.isLt
  have hw := w.isLt
  unfold accAdd
  simp only [BitVec.toNat_ofNat]
  split <;> omega

/-- acc_add is addition modulo 0xFFFFFFFF (40_checksum.md R104). -/
theorem accAdd_mod (a : Word) (w : Half) : (accAdd a w).toNat % 0xFFFFFFFF = (a.toNat + w.toNat) % 0xFFFFFFFF := by
  rw [accAdd_toNat]
  split <;> omega

theorem accAdd_eq_zero (a : Word) (w : Half) : (accAdd a w).toNat = 0 ↔ a.toNat + w.toNat = 0 := by
  rw [accAdd_toNat]
  split <;> omega

/-! ### Folding -/

theorem foldStep_eq (s : Nat) : foldStep s = s % 65536 + s / 65536 := by
  unfold foldStep
  rw [show (0xFFFF : Nat) = 2 ^ 16 - 1 from rfl, Nat.and_two_pow_sub_one_eq_mod, Nat.shiftRight_eq_div_pow]

theorem foldStep_mod (s : Nat) : foldStep s % 0xFFFF = s % 0xFFFF := by
  rw [foldStep_eq]
  omega

theorem foldStep_eq_zero (s : Nat) : foldStep s = 0 ↔ s = 0 := by
  rw [foldStep_eq]
  omega

theorem foldLoop_mod (n s : Nat) : foldLoop n s % 0xFFFF = s % 0xFFFF := by
  induction n generalizing s with
  | zero => rfl
  | succ n ih =>
    unfold foldLoop
    split
    · rw [ih, foldStep_mod]
    · rfl

theorem foldLoop_eq_zero (n s : Nat) : foldLoop n s = 0 ↔ s = 0 := by
  induction n generalizing s with
  | zero => rfl
  | succ n ih =>
    unfold foldLoop
    split
    · rw [ih, foldStep_eq_zero]
    · rfl

/-- A folded value is not folded again. -/
theorem foldLoop_small (n s : Nat) (h : s ≤ 0xFFFF) : foldLoop n s = s := by
  cases n with
  | zero => rfl
  | succ n => unfold foldLoop; simp [show ¬ s > 0xFFFF by omega]

/-- Two passes bring a 32-bit value to 16 bits (40_checksum.md R102). -/
theorem foldLoop_two_le (s : Nat) (h : s < 2 ^ 32) : foldLoop 2 s ≤ 0xFFFF := by
  simp only [foldLoop, foldStep_eq]
  split
  · split <;> omega
  · omega

theorem fold16_toNat (a : Word) : (fold16 a).toNat = foldLoop 2 a.toNat := by
  have := foldLoop_two_le a.toNat a.isLt
  simp only [fold16, BitVec.toNat_ofNat]
  omega

theorem fold16_mod (a : Word) : (fold16 a).toNat % 0xFFFF = a.toNat % 0xFFFF := by
  rw [fold16_toNat, foldLoop_mod]

theorem fold16_eq_zero (a : Word) : (fold16 a).toNat = 0 ↔ a.toNat = 0 := by
  rw [fold16_toNat, foldLoop_eq_zero]

/-! ### Totals -/

/-- The unbounded sum of words. -/
def wordSum (ws : List Half) : Nat := (ws.map BitVec.toNat).sum

theorem foldl_accAdd_mod (ws : List Half) (a : Word) :
    (ws.foldl accAdd a).toNat % 0xFFFFFFFF = (a.toNat + wordSum ws) % 0xFFFFFFFF := by
  induction ws generalizing a with
  | nil => simp [wordSum]
  | cons w ws ih =>
    have h := accAdd_mod a w
    simp only [List.foldl_cons, ih, wordSum, List.map_cons, List.sum_cons] at *
    omega

theorem foldl_accAdd_eq_zero (ws : List Half) (a : Word) :
    (ws.foldl accAdd a).toNat = 0 ↔ a.toNat + wordSum ws = 0 := by
  induction ws generalizing a with
  | nil => simp [wordSum]
  | cons w ws ih =>
    have h := accAdd_eq_zero a w
    simp only [List.foldl_cons, ih, wordSum, List.map_cons, List.sum_cons] at *
    omega

theorem total_mod (ws : List Half) : (total ws).toNat % 0xFFFFFFFF = wordSum ws % 0xFFFFFFFF := by
  unfold total
  rw [foldl_accAdd_mod]
  simp

theorem total_eq_zero (ws : List Half) : (total ws).toNat = 0 ↔ wordSum ws = 0 := by
  unfold total
  rw [foldl_accAdd_eq_zero]
  simp

/-! ### The stream -/

/-- Two bytes pushed on a stream of even length add one word (40_checksum.md R107). -/
theorem pushBytes_pair (t : CkStream) (h : t.odd = false) (b c : Byte) (rest : List Byte) :
    pushBytes t (b :: c :: rest) = pushBytes ⟨accAdd t.acc (halfOfBytes b c), false, 0⟩ rest := by
  simp [pushBytes, pushByte, h]

/-- The checksum of a stream from an even state is that of the words it has yet to see. -/
theorem streamChecksum_pushBytes (bs : List Byte) (a : Word) (p : Byte) :
    streamChecksum (pushBytes ⟨a, false, p⟩ bs) = 0xFFFF - fold16 ((words bs).foldl accAdd a) := by
  induction bs using words.induct generalizing a p with
  | case1 => simp [pushBytes, streamChecksum, words]
  | case2 b => simp [pushBytes, pushByte, streamChecksum, words]
  | case3 b c rest ih =>
    rw [pushBytes_pair _ rfl, ih]
    simp [words]

/-- The buffer run computes csum (40_checksum.md R110, R112). -/
theorem streamChecksum_ofBytes (bs : List Byte) : streamChecksum (pushBytes emptyStream bs) = csum bs := by
  unfold emptyStream csum total
  exact streamChecksum_pushBytes bs 0 0

theorem pushBytes_append (t : CkStream) (bs cs : List Byte) :
    pushBytes t (bs ++ cs) = pushBytes (pushBytes t bs) cs := by
  simp [pushBytes]

/-- ODD counts the bytes modulo 2 (40_checksum.md R112). -/
theorem pushBytes_odd (t : CkStream) (bs : List Byte) :
    (pushBytes t bs).odd = (t.odd ^^ decide (bs.length % 2 = 1)) := by
  induction bs generalizing t with
  | nil => simp [pushBytes]
  | cons b bs ih =>
    have h : pushBytes t (b :: bs) = pushBytes (pushByte t b) bs := rfl
    rw [h, ih]
    have h2 : (pushByte t b).odd = !t.odd := by
      unfold pushByte
      split <;> simp_all
    rw [h2, List.length_cons]
    rcases Nat.mod_two_eq_zero_or_one bs.length with hm | hm <;>
      simp [hm, Nat.add_mod]

/-- PEND is 0 whenever ODD is 0 (10_state.md R36). -/
theorem pushBytes_pend (t : CkStream) (bs : List Byte) (h : t.odd = false → t.pend = 0) :
    (pushBytes t bs).odd = false → (pushBytes t bs).pend = 0 := by
  induction bs generalizing t with
  | nil => exact h
  | cons b bs ih =>
    refine ih (pushByte t b) fun ho => ?_
    unfold pushByte at *
    split at ho <;> simp_all

end Sys2Proof.Machine
end

