-- ==== Sys2Proof/Laws/Encode.lean ====
section
/-! SUPPORT. The fields of a command word and of an encoded command (30_encoding.md R70, R71). -/

namespace Sys2Proof

theorem opField_append (op rsv : Byte) (imm : Half) : opField (op ++ rsv ++ imm) = op := by
  change BitVec.extractLsb' (n := 8 + 8 + 16) 24 8 (op ++ rsv ++ imm) = op
  ext i hi
  rw [BitVec.getElem_extractLsb', BitVec.getLsbD_append, BitVec.getLsbD_append, if_neg (by omega),
    if_neg (by omega), show 24 + i - 16 - 8 = i by omega, BitVec.getLsbD_eq_getElem hi]

theorem rsvField_append (op rsv : Byte) (imm : Half) : rsvField (op ++ rsv ++ imm) = rsv := by
  change BitVec.extractLsb' (n := 8 + 8 + 16) 16 8 (op ++ rsv ++ imm) = rsv
  ext i hi
  rw [BitVec.getElem_extractLsb', BitVec.getLsbD_append, BitVec.getLsbD_append, if_neg (by omega),
    if_pos (by omega), show 16 + i - 16 = i by omega, BitVec.getLsbD_eq_getElem hi]

theorem immField_append (op rsv : Byte) (imm : Half) : immField (op ++ rsv ++ imm) = imm := by
  change BitVec.extractLsb' (n := 8 + 8 + 16) 0 16 (op ++ rsv ++ imm) = imm
  ext i hi
  rw [BitVec.getElem_extractLsb', BitVec.getLsbD_append, if_pos (by omega), Nat.zero_add,
    BitVec.getLsbD_eq_getElem hi]

/-- A word is its three fields. -/
theorem word_eq_fields (c : Word) : c = opField c ++ rsvField c ++ immField c := by
  ext i hi
  unfold opField rsvField immField
  rw [BitVec.getElem_append]
  split
  · rw [BitVec.getElem_extractLsb', Nat.zero_add, BitVec.getLsbD_eq_getElem hi]
  · rw [BitVec.getElem_append]
    split
    · rw [BitVec.getElem_extractLsb', show 16 + (i - 16) = i by omega, BitVec.getLsbD_eq_getElem hi]
    · rw [BitVec.getElem_extractLsb', show 24 + (i - 16 - 8) = i by omega, BitVec.getLsbD_eq_getElem hi]

@[simp] theorem opField_encode (i : Instr) : opField (encode i) = i.opcode := opField_append _ _ _
@[simp] theorem rsvField_encode (i : Instr) : rsvField (encode i) = 0 := rsvField_append _ _ _
@[simp] theorem immField_encode (i : Instr) : immField (encode i) = i.immediate := immField_append _ _ _

end Sys2Proof
end

