-- ==== Sys2Proof/Laws/State.lean ====
section
/-! SUPPORT. What each update of the state leaves in each field: one lemma per field per update. -/

namespace Sys2Proof.Machine

variable (s : State)

/-! ### fbStore. MemWrite writes FB only (00_scope.md R9). -/

@[simp] theorem fbStore_acc (k : Nat) (bs : List Byte) : (fbStore k bs s).acc = s.acc := rfl
@[simp] theorem fbStore_odd (k : Nat) (bs : List Byte) : (fbStore k bs s).odd = s.odd := rfl
@[simp] theorem fbStore_pend (k : Nat) (bs : List Byte) : (fbStore k bs s).pend = s.pend := rfl
@[simp] theorem fbStore_csum (k : Nat) (bs : List Byte) : (fbStore k bs s).csum = s.csum := rfl
@[simp] theorem fbStore_ident (k : Nat) (bs : List Byte) : (fbStore k bs s).ident = s.ident := rfl
@[simp] theorem fbStore_seqNum (k : Nat) (bs : List Byte) : (fbStore k bs s).seqNum = s.seqNum := rfl
@[simp] theorem fbStore_orig (k : Nat) (bs : List Byte) : (fbStore k bs s).orig = s.orig := rfl
@[simp] theorem fbStore_recv (k : Nat) (bs : List Byte) : (fbStore k bs s).recv = s.recv := rfl
@[simp] theorem fbStore_xmit (k : Nat) (bs : List Byte) : (fbStore k bs s).xmit = s.xmit := rfl
@[simp] theorem fbStore_plen (k : Nat) (bs : List Byte) : (fbStore k bs s).plen = s.plen := rfl
@[simp] theorem fbStore_len (k : Nat) (bs : List Byte) : (fbStore k bs s).len = s.len := rfl
@[simp] theorem fbStore_err (k : Nat) (bs : List Byte) : (fbStore k bs s).err = s.err := rfl
@[simp] theorem fbStore_errCode (k : Nat) (bs : List Byte) : (fbStore k bs s).errCode = s.errCode := rfl
@[simp] theorem fbStore_frameValid (k : Nat) (bs : List Byte) : (fbStore k bs s).frameValid = s.frameValid := rfl
@[simp] theorem fbStore_vdone (k : Nat) (bs : List Byte) : (fbStore k bs s).vdone = s.vdone := rfl
@[simp] theorem fbStore_matched (k : Nat) (bs : List Byte) : (fbStore k bs s).matched = s.matched := rfl
@[simp] theorem fbStore_short (k : Nat) (bs : List Byte) : (fbStore k bs s).short = s.short := rfl
@[simp] theorem fbStore_cap (k : Nat) (bs : List Byte) : (fbStore k bs s).cap = s.cap := rfl
@[simp] theorem fbStore_fb (k : Nat) (bs : List Byte) : (fbStore k bs s).fb = Memory.writeBytes s.fb k bs := rfl
@[simp] theorem fbStore_out (k : Nat) (bs : List Byte) : (fbStore k bs s).out = s.out := rfl
@[simp] theorem fbStore_fbEpoch (k : Nat) (bs : List Byte) : (fbStore k bs s).fbEpoch = s.fbEpoch := rfl
@[simp] theorem fbStore_sink (k : Nat) (bs : List Byte) : (fbStore k bs s).sink = s.sink := rfl
@[simp] theorem fbStore_sinkDraws (k : Nat) (bs : List Byte) : (fbStore k bs s).sinkDraws = s.sinkDraws := rfl
@[simp] theorem fbStore_host (k : Nat) (bs : List Byte) : (fbStore k bs s).host = s.host := rfl
@[simp] theorem fbStore_replies (k : Nat) (bs : List Byte) : (fbStore k bs s).replies = s.replies := rfl

/-! ### setStream. Writing the stream (40_checksum.md R106). -/

@[simp] theorem setStream_acc (t : CkStream) : (setStream t s).acc = t.acc := rfl
@[simp] theorem setStream_odd (t : CkStream) : (setStream t s).odd = t.odd := rfl
@[simp] theorem setStream_pend (t : CkStream) : (setStream t s).pend = t.pend := rfl
@[simp] theorem setStream_csum (t : CkStream) : (setStream t s).csum = s.csum := rfl
@[simp] theorem setStream_ident (t : CkStream) : (setStream t s).ident = s.ident := rfl
@[simp] theorem setStream_seqNum (t : CkStream) : (setStream t s).seqNum = s.seqNum := rfl
@[simp] theorem setStream_orig (t : CkStream) : (setStream t s).orig = s.orig := rfl
@[simp] theorem setStream_recv (t : CkStream) : (setStream t s).recv = s.recv := rfl
@[simp] theorem setStream_xmit (t : CkStream) : (setStream t s).xmit = s.xmit := rfl
@[simp] theorem setStream_plen (t : CkStream) : (setStream t s).plen = s.plen := rfl
@[simp] theorem setStream_len (t : CkStream) : (setStream t s).len = s.len := rfl
@[simp] theorem setStream_err (t : CkStream) : (setStream t s).err = s.err := rfl
@[simp] theorem setStream_errCode (t : CkStream) : (setStream t s).errCode = s.errCode := rfl
@[simp] theorem setStream_frameValid (t : CkStream) : (setStream t s).frameValid = s.frameValid := rfl
@[simp] theorem setStream_vdone (t : CkStream) : (setStream t s).vdone = s.vdone := rfl
@[simp] theorem setStream_matched (t : CkStream) : (setStream t s).matched = s.matched := rfl
@[simp] theorem setStream_short (t : CkStream) : (setStream t s).short = s.short := rfl
@[simp] theorem setStream_cap (t : CkStream) : (setStream t s).cap = s.cap := rfl
@[simp] theorem setStream_fb (t : CkStream) : (setStream t s).fb = s.fb := rfl
@[simp] theorem setStream_out (t : CkStream) : (setStream t s).out = s.out := rfl
@[simp] theorem setStream_fbEpoch (t : CkStream) : (setStream t s).fbEpoch = s.fbEpoch := rfl
@[simp] theorem setStream_sink (t : CkStream) : (setStream t s).sink = s.sink := rfl
@[simp] theorem setStream_sinkDraws (t : CkStream) : (setStream t s).sinkDraws = s.sinkDraws := rfl
@[simp] theorem setStream_host (t : CkStream) : (setStream t s).host = s.host := rfl
@[simp] theorem setStream_replies (t : CkStream) : (setStream t s).replies = s.replies := rfl

/-! ### finalize. finalize writes CSUM only (40_checksum.md R109). -/

@[simp] theorem finalize_acc : (finalize s).acc = s.acc := by unfold finalize; rfl
@[simp] theorem finalize_odd : (finalize s).odd = s.odd := by unfold finalize; rfl
@[simp] theorem finalize_pend : (finalize s).pend = s.pend := by unfold finalize; rfl
@[simp] theorem finalize_csum : (finalize s).csum = streamChecksum (stream s) := by unfold finalize; rfl
@[simp] theorem finalize_ident : (finalize s).ident = s.ident := by unfold finalize; rfl
@[simp] theorem finalize_seqNum : (finalize s).seqNum = s.seqNum := by unfold finalize; rfl
@[simp] theorem finalize_orig : (finalize s).orig = s.orig := by unfold finalize; rfl
@[simp] theorem finalize_recv : (finalize s).recv = s.recv := by unfold finalize; rfl
@[simp] theorem finalize_xmit : (finalize s).xmit = s.xmit := by unfold finalize; rfl
@[simp] theorem finalize_plen : (finalize s).plen = s.plen := by unfold finalize; rfl
@[simp] theorem finalize_len : (finalize s).len = s.len := by unfold finalize; rfl
@[simp] theorem finalize_err : (finalize s).err = s.err := by unfold finalize; rfl
@[simp] theorem finalize_errCode : (finalize s).errCode = s.errCode := by unfold finalize; rfl
@[simp] theorem finalize_frameValid : (finalize s).frameValid = s.frameValid := by unfold finalize; rfl
@[simp] theorem finalize_vdone : (finalize s).vdone = s.vdone := by unfold finalize; rfl
@[simp] theorem finalize_matched : (finalize s).matched = s.matched := by unfold finalize; rfl
@[simp] theorem finalize_short : (finalize s).short = s.short := by unfold finalize; rfl
@[simp] theorem finalize_cap : (finalize s).cap = s.cap := by unfold finalize; rfl
@[simp] theorem finalize_fb : (finalize s).fb = s.fb := by unfold finalize; rfl
@[simp] theorem finalize_out : (finalize s).out = s.out := by unfold finalize; rfl
@[simp] theorem finalize_fbEpoch : (finalize s).fbEpoch = s.fbEpoch := by unfold finalize; rfl
@[simp] theorem finalize_sink : (finalize s).sink = s.sink := by unfold finalize; rfl
@[simp] theorem finalize_sinkDraws : (finalize s).sinkDraws = s.sinkDraws := by unfold finalize; rfl
@[simp] theorem finalize_host : (finalize s).host = s.host := by unfold finalize; rfl
@[simp] theorem finalize_replies : (finalize s).replies = s.replies := by unfold finalize; rfl

/-! ### sumBytes. The run of a buffer command (40_checksum.md R110). -/

@[simp] theorem sumBytes_acc (bs : List Byte) : (sumBytes bs s).acc = (pushBytes emptyStream bs).acc := by unfold sumBytes finalize; rfl
@[simp] theorem sumBytes_odd (bs : List Byte) : (sumBytes bs s).odd = (pushBytes emptyStream bs).odd := by unfold sumBytes finalize; rfl
@[simp] theorem sumBytes_pend (bs : List Byte) : (sumBytes bs s).pend = (pushBytes emptyStream bs).pend := by unfold sumBytes finalize; rfl
@[simp] theorem sumBytes_csum (bs : List Byte) : (sumBytes bs s).csum = streamChecksum (pushBytes emptyStream bs) := by unfold sumBytes finalize; rfl
@[simp] theorem sumBytes_ident (bs : List Byte) : (sumBytes bs s).ident = s.ident := by unfold sumBytes finalize; rfl
@[simp] theorem sumBytes_seqNum (bs : List Byte) : (sumBytes bs s).seqNum = s.seqNum := by unfold sumBytes finalize; rfl
@[simp] theorem sumBytes_orig (bs : List Byte) : (sumBytes bs s).orig = s.orig := by unfold sumBytes finalize; rfl
@[simp] theorem sumBytes_recv (bs : List Byte) : (sumBytes bs s).recv = s.recv := by unfold sumBytes finalize; rfl
@[simp] theorem sumBytes_xmit (bs : List Byte) : (sumBytes bs s).xmit = s.xmit := by unfold sumBytes finalize; rfl
@[simp] theorem sumBytes_plen (bs : List Byte) : (sumBytes bs s).plen = s.plen := by unfold sumBytes finalize; rfl
@[simp] theorem sumBytes_len (bs : List Byte) : (sumBytes bs s).len = s.len := by unfold sumBytes finalize; rfl
@[simp] theorem sumBytes_err (bs : List Byte) : (sumBytes bs s).err = s.err := by unfold sumBytes finalize; rfl
@[simp] theorem sumBytes_errCode (bs : List Byte) : (sumBytes bs s).errCode = s.errCode := by unfold sumBytes finalize; rfl
@[simp] theorem sumBytes_frameValid (bs : List Byte) : (sumBytes bs s).frameValid = s.frameValid := by unfold sumBytes finalize; rfl
@[simp] theorem sumBytes_vdone (bs : List Byte) : (sumBytes bs s).vdone = s.vdone := by unfold sumBytes finalize; rfl
@[simp] theorem sumBytes_matched (bs : List Byte) : (sumBytes bs s).matched = s.matched := by unfold sumBytes finalize; rfl
@[simp] theorem sumBytes_short (bs : List Byte) : (sumBytes bs s).short = s.short := by unfold sumBytes finalize; rfl
@[simp] theorem sumBytes_cap (bs : List Byte) : (sumBytes bs s).cap = s.cap := by unfold sumBytes finalize; rfl
@[simp] theorem sumBytes_fb (bs : List Byte) : (sumBytes bs s).fb = s.fb := by unfold sumBytes finalize; rfl
@[simp] theorem sumBytes_out (bs : List Byte) : (sumBytes bs s).out = s.out := by unfold sumBytes finalize; rfl
@[simp] theorem sumBytes_fbEpoch (bs : List Byte) : (sumBytes bs s).fbEpoch = s.fbEpoch := by unfold sumBytes finalize; rfl
@[simp] theorem sumBytes_sink (bs : List Byte) : (sumBytes bs s).sink = s.sink := by unfold sumBytes finalize; rfl
@[simp] theorem sumBytes_sinkDraws (bs : List Byte) : (sumBytes bs s).sinkDraws = s.sinkDraws := by unfold sumBytes finalize; rfl
@[simp] theorem sumBytes_host (bs : List Byte) : (sumBytes bs s).host = s.host := by unfold sumBytes finalize; rfl
@[simp] theorem sumBytes_replies (bs : List Byte) : (sumBytes bs s).replies = s.replies := by unfold sumBytes finalize; rfl

/-! ### setFrameValid. Writing FRAME_VALID (43_frame_control.md R150). -/

@[simp] theorem setFrameValid_acc (v : Bool) : (setFrameValid v s).acc = s.acc := rfl
@[simp] theorem setFrameValid_odd (v : Bool) : (setFrameValid v s).odd = s.odd := rfl
@[simp] theorem setFrameValid_pend (v : Bool) : (setFrameValid v s).pend = s.pend := rfl
@[simp] theorem setFrameValid_csum (v : Bool) : (setFrameValid v s).csum = s.csum := rfl
@[simp] theorem setFrameValid_ident (v : Bool) : (setFrameValid v s).ident = s.ident := rfl
@[simp] theorem setFrameValid_seqNum (v : Bool) : (setFrameValid v s).seqNum = s.seqNum := rfl
@[simp] theorem setFrameValid_orig (v : Bool) : (setFrameValid v s).orig = s.orig := rfl
@[simp] theorem setFrameValid_recv (v : Bool) : (setFrameValid v s).recv = s.recv := rfl
@[simp] theorem setFrameValid_xmit (v : Bool) : (setFrameValid v s).xmit = s.xmit := rfl
@[simp] theorem setFrameValid_plen (v : Bool) : (setFrameValid v s).plen = s.plen := rfl
@[simp] theorem setFrameValid_len (v : Bool) : (setFrameValid v s).len = s.len := rfl
@[simp] theorem setFrameValid_err (v : Bool) : (setFrameValid v s).err = s.err := rfl
@[simp] theorem setFrameValid_errCode (v : Bool) : (setFrameValid v s).errCode = s.errCode := rfl
@[simp] theorem setFrameValid_frameValid (v : Bool) : (setFrameValid v s).frameValid = v := rfl
@[simp] theorem setFrameValid_vdone (v : Bool) : (setFrameValid v s).vdone = s.vdone := rfl
@[simp] theorem setFrameValid_matched (v : Bool) : (setFrameValid v s).matched = s.matched := rfl
@[simp] theorem setFrameValid_short (v : Bool) : (setFrameValid v s).short = s.short := rfl
@[simp] theorem setFrameValid_cap (v : Bool) : (setFrameValid v s).cap = s.cap := rfl
@[simp] theorem setFrameValid_fb (v : Bool) : (setFrameValid v s).fb = s.fb := rfl
@[simp] theorem setFrameValid_out (v : Bool) : (setFrameValid v s).out = s.out := rfl
@[simp] theorem setFrameValid_fbEpoch (v : Bool) : (setFrameValid v s).fbEpoch = s.fbEpoch := rfl
@[simp] theorem setFrameValid_sink (v : Bool) : (setFrameValid v s).sink = s.sink := rfl
@[simp] theorem setFrameValid_sinkDraws (v : Bool) : (setFrameValid v s).sinkDraws = s.sinkDraws := rfl
@[simp] theorem setFrameValid_host (v : Bool) : (setFrameValid v s).host = s.host := rfl
@[simp] theorem setFrameValid_replies (v : Bool) : (setFrameValid v s).replies = s.replies := rfl

/-! ### setLen. Writing LEN (10_state.md R43). -/

@[simp] theorem setLen_acc (n : Nat) : (setLen n s).acc = s.acc := rfl
@[simp] theorem setLen_odd (n : Nat) : (setLen n s).odd = s.odd := rfl
@[simp] theorem setLen_pend (n : Nat) : (setLen n s).pend = s.pend := rfl
@[simp] theorem setLen_csum (n : Nat) : (setLen n s).csum = s.csum := rfl
@[simp] theorem setLen_ident (n : Nat) : (setLen n s).ident = s.ident := rfl
@[simp] theorem setLen_seqNum (n : Nat) : (setLen n s).seqNum = s.seqNum := rfl
@[simp] theorem setLen_orig (n : Nat) : (setLen n s).orig = s.orig := rfl
@[simp] theorem setLen_recv (n : Nat) : (setLen n s).recv = s.recv := rfl
@[simp] theorem setLen_xmit (n : Nat) : (setLen n s).xmit = s.xmit := rfl
@[simp] theorem setLen_plen (n : Nat) : (setLen n s).plen = s.plen := rfl
@[simp] theorem setLen_len (n : Nat) : (setLen n s).len = BitVec.ofNat 16 n := rfl
@[simp] theorem setLen_err (n : Nat) : (setLen n s).err = s.err := rfl
@[simp] theorem setLen_errCode (n : Nat) : (setLen n s).errCode = s.errCode := rfl
@[simp] theorem setLen_frameValid (n : Nat) : (setLen n s).frameValid = s.frameValid := rfl
@[simp] theorem setLen_vdone (n : Nat) : (setLen n s).vdone = s.vdone := rfl
@[simp] theorem setLen_matched (n : Nat) : (setLen n s).matched = s.matched := rfl
@[simp] theorem setLen_short (n : Nat) : (setLen n s).short = s.short := rfl
@[simp] theorem setLen_cap (n : Nat) : (setLen n s).cap = s.cap := rfl
@[simp] theorem setLen_fb (n : Nat) : (setLen n s).fb = s.fb := rfl
@[simp] theorem setLen_out (n : Nat) : (setLen n s).out = s.out := rfl
@[simp] theorem setLen_fbEpoch (n : Nat) : (setLen n s).fbEpoch = s.fbEpoch := rfl
@[simp] theorem setLen_sink (n : Nat) : (setLen n s).sink = s.sink := rfl
@[simp] theorem setLen_sinkDraws (n : Nat) : (setLen n s).sinkDraws = s.sinkDraws := rfl
@[simp] theorem setLen_host (n : Nat) : (setLen n s).host = s.host := rfl
@[simp] theorem setLen_replies (n : Nat) : (setLen n s).replies = s.replies := rfl

/-! ### setVerdict. The result of a VALIDATE (40_checksum.md R111). -/

@[simp] theorem setVerdict_acc (m sh : Bool) : (setVerdict m sh s).acc = s.acc := rfl
@[simp] theorem setVerdict_odd (m sh : Bool) : (setVerdict m sh s).odd = s.odd := rfl
@[simp] theorem setVerdict_pend (m sh : Bool) : (setVerdict m sh s).pend = s.pend := rfl
@[simp] theorem setVerdict_csum (m sh : Bool) : (setVerdict m sh s).csum = s.csum := rfl
@[simp] theorem setVerdict_ident (m sh : Bool) : (setVerdict m sh s).ident = s.ident := rfl
@[simp] theorem setVerdict_seqNum (m sh : Bool) : (setVerdict m sh s).seqNum = s.seqNum := rfl
@[simp] theorem setVerdict_orig (m sh : Bool) : (setVerdict m sh s).orig = s.orig := rfl
@[simp] theorem setVerdict_recv (m sh : Bool) : (setVerdict m sh s).recv = s.recv := rfl
@[simp] theorem setVerdict_xmit (m sh : Bool) : (setVerdict m sh s).xmit = s.xmit := rfl
@[simp] theorem setVerdict_plen (m sh : Bool) : (setVerdict m sh s).plen = s.plen := rfl
@[simp] theorem setVerdict_len (m sh : Bool) : (setVerdict m sh s).len = s.len := rfl
@[simp] theorem setVerdict_err (m sh : Bool) : (setVerdict m sh s).err = s.err := rfl
@[simp] theorem setVerdict_errCode (m sh : Bool) : (setVerdict m sh s).errCode = s.errCode := rfl
@[simp] theorem setVerdict_frameValid (m sh : Bool) : (setVerdict m sh s).frameValid = m := rfl
@[simp] theorem setVerdict_vdone (m sh : Bool) : (setVerdict m sh s).vdone = true := rfl
@[simp] theorem setVerdict_matched (m sh : Bool) : (setVerdict m sh s).matched = m := rfl
@[simp] theorem setVerdict_short (m sh : Bool) : (setVerdict m sh s).short = sh := rfl
@[simp] theorem setVerdict_cap (m sh : Bool) : (setVerdict m sh s).cap = s.cap := rfl
@[simp] theorem setVerdict_fb (m sh : Bool) : (setVerdict m sh s).fb = s.fb := rfl
@[simp] theorem setVerdict_out (m sh : Bool) : (setVerdict m sh s).out = s.out := rfl
@[simp] theorem setVerdict_fbEpoch (m sh : Bool) : (setVerdict m sh s).fbEpoch = s.fbEpoch := rfl
@[simp] theorem setVerdict_sink (m sh : Bool) : (setVerdict m sh s).sink = s.sink := rfl
@[simp] theorem setVerdict_sinkDraws (m sh : Bool) : (setVerdict m sh s).sinkDraws = s.sinkDraws := rfl
@[simp] theorem setVerdict_host (m sh : Bool) : (setVerdict m sh s).host = s.host := rfl
@[simp] theorem setVerdict_replies (m sh : Bool) : (setVerdict m sh s).replies = s.replies := rfl

/-! ### recordError. The error record (60_exceptions.md R200). -/

@[simp] theorem recordError_acc (c : ErrCode) : (recordError c s).acc = s.acc := rfl
@[simp] theorem recordError_odd (c : ErrCode) : (recordError c s).odd = s.odd := rfl
@[simp] theorem recordError_pend (c : ErrCode) : (recordError c s).pend = s.pend := rfl
@[simp] theorem recordError_csum (c : ErrCode) : (recordError c s).csum = s.csum := rfl
@[simp] theorem recordError_ident (c : ErrCode) : (recordError c s).ident = s.ident := rfl
@[simp] theorem recordError_seqNum (c : ErrCode) : (recordError c s).seqNum = s.seqNum := rfl
@[simp] theorem recordError_orig (c : ErrCode) : (recordError c s).orig = s.orig := rfl
@[simp] theorem recordError_recv (c : ErrCode) : (recordError c s).recv = s.recv := rfl
@[simp] theorem recordError_xmit (c : ErrCode) : (recordError c s).xmit = s.xmit := rfl
@[simp] theorem recordError_plen (c : ErrCode) : (recordError c s).plen = s.plen := rfl
@[simp] theorem recordError_len (c : ErrCode) : (recordError c s).len = s.len := rfl
@[simp] theorem recordError_err (c : ErrCode) : (recordError c s).err = true := rfl
@[simp] theorem recordError_errCode (c : ErrCode) : (recordError c s).errCode = if s.err then s.errCode else c := rfl
@[simp] theorem recordError_frameValid (c : ErrCode) : (recordError c s).frameValid = s.frameValid := rfl
@[simp] theorem recordError_vdone (c : ErrCode) : (recordError c s).vdone = s.vdone := rfl
@[simp] theorem recordError_matched (c : ErrCode) : (recordError c s).matched = s.matched := rfl
@[simp] theorem recordError_short (c : ErrCode) : (recordError c s).short = s.short := rfl
@[simp] theorem recordError_cap (c : ErrCode) : (recordError c s).cap = s.cap := rfl
@[simp] theorem recordError_fb (c : ErrCode) : (recordError c s).fb = s.fb := rfl
@[simp] theorem recordError_out (c : ErrCode) : (recordError c s).out = s.out := rfl
@[simp] theorem recordError_fbEpoch (c : ErrCode) : (recordError c s).fbEpoch = s.fbEpoch := rfl
@[simp] theorem recordError_sink (c : ErrCode) : (recordError c s).sink = s.sink := rfl
@[simp] theorem recordError_sinkDraws (c : ErrCode) : (recordError c s).sinkDraws = s.sinkDraws := rfl
@[simp] theorem recordError_host (c : ErrCode) : (recordError c s).host = s.host := rfl
@[simp] theorem recordError_replies (c : ErrCode) : (recordError c s).replies = s.replies := rfl

/-! ### clearError. Clearing the error record (43_frame_control.md R156). -/

@[simp] theorem clearError_acc : (clearError s).acc = s.acc := rfl
@[simp] theorem clearError_odd : (clearError s).odd = s.odd := rfl
@[simp] theorem clearError_pend : (clearError s).pend = s.pend := rfl
@[simp] theorem clearError_csum : (clearError s).csum = s.csum := rfl
@[simp] theorem clearError_ident : (clearError s).ident = s.ident := rfl
@[simp] theorem clearError_seqNum : (clearError s).seqNum = s.seqNum := rfl
@[simp] theorem clearError_orig : (clearError s).orig = s.orig := rfl
@[simp] theorem clearError_recv : (clearError s).recv = s.recv := rfl
@[simp] theorem clearError_xmit : (clearError s).xmit = s.xmit := rfl
@[simp] theorem clearError_plen : (clearError s).plen = s.plen := rfl
@[simp] theorem clearError_len : (clearError s).len = s.len := rfl
@[simp] theorem clearError_err : (clearError s).err = false := rfl
@[simp] theorem clearError_errCode : (clearError s).errCode = .none := rfl
@[simp] theorem clearError_frameValid : (clearError s).frameValid = s.frameValid := rfl
@[simp] theorem clearError_vdone : (clearError s).vdone = s.vdone := rfl
@[simp] theorem clearError_matched : (clearError s).matched = s.matched := rfl
@[simp] theorem clearError_short : (clearError s).short = s.short := rfl
@[simp] theorem clearError_cap : (clearError s).cap = s.cap := rfl
@[simp] theorem clearError_fb : (clearError s).fb = s.fb := rfl
@[simp] theorem clearError_out : (clearError s).out = s.out := rfl
@[simp] theorem clearError_fbEpoch : (clearError s).fbEpoch = s.fbEpoch := rfl
@[simp] theorem clearError_sink : (clearError s).sink = s.sink := rfl
@[simp] theorem clearError_sinkDraws : (clearError s).sinkDraws = s.sinkDraws := rfl
@[simp] theorem clearError_host : (clearError s).host = s.host := rfl
@[simp] theorem clearError_replies : (clearError s).replies = s.replies := rfl

/-! ### appendOut. Appending to OUT (43_frame_control.md R152). -/

@[simp] theorem appendOut_acc (e : OutEntry) : (appendOut e s).acc = s.acc := rfl
@[simp] theorem appendOut_odd (e : OutEntry) : (appendOut e s).odd = s.odd := rfl
@[simp] theorem appendOut_pend (e : OutEntry) : (appendOut e s).pend = s.pend := rfl
@[simp] theorem appendOut_csum (e : OutEntry) : (appendOut e s).csum = s.csum := rfl
@[simp] theorem appendOut_ident (e : OutEntry) : (appendOut e s).ident = s.ident := rfl
@[simp] theorem appendOut_seqNum (e : OutEntry) : (appendOut e s).seqNum = s.seqNum := rfl
@[simp] theorem appendOut_orig (e : OutEntry) : (appendOut e s).orig = s.orig := rfl
@[simp] theorem appendOut_recv (e : OutEntry) : (appendOut e s).recv = s.recv := rfl
@[simp] theorem appendOut_xmit (e : OutEntry) : (appendOut e s).xmit = s.xmit := rfl
@[simp] theorem appendOut_plen (e : OutEntry) : (appendOut e s).plen = s.plen := rfl
@[simp] theorem appendOut_len (e : OutEntry) : (appendOut e s).len = s.len := rfl
@[simp] theorem appendOut_err (e : OutEntry) : (appendOut e s).err = s.err := rfl
@[simp] theorem appendOut_errCode (e : OutEntry) : (appendOut e s).errCode = s.errCode := rfl
@[simp] theorem appendOut_frameValid (e : OutEntry) : (appendOut e s).frameValid = s.frameValid := rfl
@[simp] theorem appendOut_vdone (e : OutEntry) : (appendOut e s).vdone = s.vdone := rfl
@[simp] theorem appendOut_matched (e : OutEntry) : (appendOut e s).matched = s.matched := rfl
@[simp] theorem appendOut_short (e : OutEntry) : (appendOut e s).short = s.short := rfl
@[simp] theorem appendOut_cap (e : OutEntry) : (appendOut e s).cap = s.cap := rfl
@[simp] theorem appendOut_fb (e : OutEntry) : (appendOut e s).fb = s.fb := rfl
@[simp] theorem appendOut_out (e : OutEntry) : (appendOut e s).out = s.out ++ [e] := rfl
@[simp] theorem appendOut_fbEpoch (e : OutEntry) : (appendOut e s).fbEpoch = s.fbEpoch := rfl
@[simp] theorem appendOut_sink (e : OutEntry) : (appendOut e s).sink = s.sink := rfl
@[simp] theorem appendOut_sinkDraws (e : OutEntry) : (appendOut e s).sinkDraws = s.sinkDraws := rfl
@[simp] theorem appendOut_host (e : OutEntry) : (appendOut e s).host = s.host := rfl
@[simp] theorem appendOut_replies (e : OutEntry) : (appendOut e s).replies = s.replies := rfl

/-! ### reply. A read's reply (30_encoding.md R78). -/

@[simp] theorem reply_acc (r : Reply) : (reply r s).acc = s.acc := rfl
@[simp] theorem reply_odd (r : Reply) : (reply r s).odd = s.odd := rfl
@[simp] theorem reply_pend (r : Reply) : (reply r s).pend = s.pend := rfl
@[simp] theorem reply_csum (r : Reply) : (reply r s).csum = s.csum := rfl
@[simp] theorem reply_ident (r : Reply) : (reply r s).ident = s.ident := rfl
@[simp] theorem reply_seqNum (r : Reply) : (reply r s).seqNum = s.seqNum := rfl
@[simp] theorem reply_orig (r : Reply) : (reply r s).orig = s.orig := rfl
@[simp] theorem reply_recv (r : Reply) : (reply r s).recv = s.recv := rfl
@[simp] theorem reply_xmit (r : Reply) : (reply r s).xmit = s.xmit := rfl
@[simp] theorem reply_plen (r : Reply) : (reply r s).plen = s.plen := rfl
@[simp] theorem reply_len (r : Reply) : (reply r s).len = s.len := rfl
@[simp] theorem reply_err (r : Reply) : (reply r s).err = s.err := rfl
@[simp] theorem reply_errCode (r : Reply) : (reply r s).errCode = s.errCode := rfl
@[simp] theorem reply_frameValid (r : Reply) : (reply r s).frameValid = s.frameValid := rfl
@[simp] theorem reply_vdone (r : Reply) : (reply r s).vdone = s.vdone := rfl
@[simp] theorem reply_matched (r : Reply) : (reply r s).matched = s.matched := rfl
@[simp] theorem reply_short (r : Reply) : (reply r s).short = s.short := rfl
@[simp] theorem reply_cap (r : Reply) : (reply r s).cap = s.cap := rfl
@[simp] theorem reply_fb (r : Reply) : (reply r s).fb = s.fb := rfl
@[simp] theorem reply_out (r : Reply) : (reply r s).out = s.out := rfl
@[simp] theorem reply_fbEpoch (r : Reply) : (reply r s).fbEpoch = s.fbEpoch := rfl
@[simp] theorem reply_sink (r : Reply) : (reply r s).sink = s.sink := rfl
@[simp] theorem reply_sinkDraws (r : Reply) : (reply r s).sinkDraws = s.sinkDraws := rfl
@[simp] theorem reply_host (r : Reply) : (reply r s).host = s.host := rfl
@[simp] theorem reply_replies (r : Reply) : (reply r s).replies = s.replies ++ [r] := rfl

/-! ### setHost. Taking the host's next event (20_memory.md R62). -/

@[simp] theorem setHost_acc (rest : List BusEvent) : (setHost rest s).acc = s.acc := rfl
@[simp] theorem setHost_odd (rest : List BusEvent) : (setHost rest s).odd = s.odd := rfl
@[simp] theorem setHost_pend (rest : List BusEvent) : (setHost rest s).pend = s.pend := rfl
@[simp] theorem setHost_csum (rest : List BusEvent) : (setHost rest s).csum = s.csum := rfl
@[simp] theorem setHost_ident (rest : List BusEvent) : (setHost rest s).ident = s.ident := rfl
@[simp] theorem setHost_seqNum (rest : List BusEvent) : (setHost rest s).seqNum = s.seqNum := rfl
@[simp] theorem setHost_orig (rest : List BusEvent) : (setHost rest s).orig = s.orig := rfl
@[simp] theorem setHost_recv (rest : List BusEvent) : (setHost rest s).recv = s.recv := rfl
@[simp] theorem setHost_xmit (rest : List BusEvent) : (setHost rest s).xmit = s.xmit := rfl
@[simp] theorem setHost_plen (rest : List BusEvent) : (setHost rest s).plen = s.plen := rfl
@[simp] theorem setHost_len (rest : List BusEvent) : (setHost rest s).len = s.len := rfl
@[simp] theorem setHost_err (rest : List BusEvent) : (setHost rest s).err = s.err := rfl
@[simp] theorem setHost_errCode (rest : List BusEvent) : (setHost rest s).errCode = s.errCode := rfl
@[simp] theorem setHost_frameValid (rest : List BusEvent) : (setHost rest s).frameValid = s.frameValid := rfl
@[simp] theorem setHost_vdone (rest : List BusEvent) : (setHost rest s).vdone = s.vdone := rfl
@[simp] theorem setHost_matched (rest : List BusEvent) : (setHost rest s).matched = s.matched := rfl
@[simp] theorem setHost_short (rest : List BusEvent) : (setHost rest s).short = s.short := rfl
@[simp] theorem setHost_cap (rest : List BusEvent) : (setHost rest s).cap = s.cap := rfl
@[simp] theorem setHost_fb (rest : List BusEvent) : (setHost rest s).fb = s.fb := rfl
@[simp] theorem setHost_out (rest : List BusEvent) : (setHost rest s).out = s.out := rfl
@[simp] theorem setHost_fbEpoch (rest : List BusEvent) : (setHost rest s).fbEpoch = s.fbEpoch := rfl
@[simp] theorem setHost_sink (rest : List BusEvent) : (setHost rest s).sink = s.sink := rfl
@[simp] theorem setHost_sinkDraws (rest : List BusEvent) : (setHost rest s).sinkDraws = s.sinkDraws := rfl
@[simp] theorem setHost_host (rest : List BusEvent) : (setHost rest s).host = rest := rfl
@[simp] theorem setHost_replies (rest : List BusEvent) : (setHost rest s).replies = s.replies := rfl

/-! ### resetBlock. The reset input (70_reset_and_hazards.md R230, R231). -/

@[simp] theorem resetBlock_acc : (resetBlock s).acc = 0 := rfl
@[simp] theorem resetBlock_odd : (resetBlock s).odd = false := rfl
@[simp] theorem resetBlock_pend : (resetBlock s).pend = 0 := rfl
@[simp] theorem resetBlock_csum : (resetBlock s).csum = 0 := rfl
@[simp] theorem resetBlock_ident : (resetBlock s).ident = 0 := rfl
@[simp] theorem resetBlock_seqNum : (resetBlock s).seqNum = 0 := rfl
@[simp] theorem resetBlock_orig : (resetBlock s).orig = 0 := rfl
@[simp] theorem resetBlock_recv : (resetBlock s).recv = 0 := rfl
@[simp] theorem resetBlock_xmit : (resetBlock s).xmit = 0 := rfl
@[simp] theorem resetBlock_plen : (resetBlock s).plen = 0 := rfl
@[simp] theorem resetBlock_len : (resetBlock s).len = 0 := rfl
@[simp] theorem resetBlock_err : (resetBlock s).err = false := rfl
@[simp] theorem resetBlock_errCode : (resetBlock s).errCode = .none := rfl
@[simp] theorem resetBlock_frameValid : (resetBlock s).frameValid = false := rfl
@[simp] theorem resetBlock_vdone : (resetBlock s).vdone = false := rfl
@[simp] theorem resetBlock_matched : (resetBlock s).matched = false := rfl
@[simp] theorem resetBlock_short : (resetBlock s).short = false := rfl
@[simp] theorem resetBlock_cap : (resetBlock s).cap = s.cap := rfl
@[simp] theorem resetBlock_fb : (resetBlock s).fb = [] := rfl
@[simp] theorem resetBlock_out : (resetBlock s).out = s.out := rfl
@[simp] theorem resetBlock_fbEpoch : (resetBlock s).fbEpoch = s.fbEpoch + 1 := rfl
@[simp] theorem resetBlock_sink : (resetBlock s).sink = s.sink := rfl
@[simp] theorem resetBlock_sinkDraws : (resetBlock s).sinkDraws = s.sinkDraws := rfl
@[simp] theorem resetBlock_host : (resetBlock s).host = s.host := rfl
@[simp] theorem resetBlock_replies : (resetBlock s).replies = s.replies := rfl

/-! ### consumeSink (log entry 4): only `sink` and `sinkDraws` change. -/

@[simp] theorem consumeSink_acc : (consumeSink s).acc = s.acc := by unfold consumeSink; split <;> rfl
@[simp] theorem consumeSink_odd : (consumeSink s).odd = s.odd := by unfold consumeSink; split <;> rfl
@[simp] theorem consumeSink_pend : (consumeSink s).pend = s.pend := by unfold consumeSink; split <;> rfl
@[simp] theorem consumeSink_csum : (consumeSink s).csum = s.csum := by unfold consumeSink; split <;> rfl
@[simp] theorem consumeSink_ident : (consumeSink s).ident = s.ident := by unfold consumeSink; split <;> rfl
@[simp] theorem consumeSink_seqNum : (consumeSink s).seqNum = s.seqNum := by unfold consumeSink; split <;> rfl
@[simp] theorem consumeSink_orig : (consumeSink s).orig = s.orig := by unfold consumeSink; split <;> rfl
@[simp] theorem consumeSink_recv : (consumeSink s).recv = s.recv := by unfold consumeSink; split <;> rfl
@[simp] theorem consumeSink_xmit : (consumeSink s).xmit = s.xmit := by unfold consumeSink; split <;> rfl
@[simp] theorem consumeSink_plen : (consumeSink s).plen = s.plen := by unfold consumeSink; split <;> rfl
@[simp] theorem consumeSink_len : (consumeSink s).len = s.len := by unfold consumeSink; split <;> rfl
@[simp] theorem consumeSink_err : (consumeSink s).err = s.err := by unfold consumeSink; split <;> rfl
@[simp] theorem consumeSink_errCode : (consumeSink s).errCode = s.errCode := by unfold consumeSink; split <;> rfl
@[simp] theorem consumeSink_frameValid : (consumeSink s).frameValid = s.frameValid := by unfold consumeSink; split <;> rfl
@[simp] theorem consumeSink_vdone : (consumeSink s).vdone = s.vdone := by unfold consumeSink; split <;> rfl
@[simp] theorem consumeSink_matched : (consumeSink s).matched = s.matched := by unfold consumeSink; split <;> rfl
@[simp] theorem consumeSink_short : (consumeSink s).short = s.short := by unfold consumeSink; split <;> rfl
@[simp] theorem consumeSink_cap : (consumeSink s).cap = s.cap := by unfold consumeSink; split <;> rfl
@[simp] theorem consumeSink_fb : (consumeSink s).fb = s.fb := by unfold consumeSink; split <;> rfl
@[simp] theorem consumeSink_out : (consumeSink s).out = s.out := by unfold consumeSink; split <;> rfl
@[simp] theorem consumeSink_fbEpoch : (consumeSink s).fbEpoch = s.fbEpoch := by unfold consumeSink; split <;> rfl
@[simp] theorem consumeSink_host : (consumeSink s).host = s.host := by unfold consumeSink; split <;> rfl
@[simp] theorem consumeSink_replies : (consumeSink s).replies = s.replies := by unfold consumeSink; split <;> rfl

end Sys2Proof.Machine
end

