-- ==== Sys2Proof/Laws/Memory.lean ====
section
/-! SUPPORT. The frame buffer: a byte reads back as written, other bytes stay, and every write keeps the canonical form (10_state.md R45). -/

namespace Sys2Proof.Machine

/-! ### One byte -/

theorem Memory.lookup_write_same (m : Memory) (k : Nat) (v : Byte) :
    Memory.lookup (Memory.write m k v) k = some v := by
  induction m with
  | nil => simp [Memory.write, Memory.lookup]
  | cons c m ih =>
    obtain ⟨a, b⟩ := c
    unfold Memory.write
    split
    · simp [Memory.lookup]
    · split
      · simp [Memory.lookup]
      · have : a ≠ k := fun h => by omega
        simp [Memory.lookup, this, ih]

theorem Memory.lookup_write_other (m : Memory) (k j : Nat) (v : Byte) (h : j ≠ k) :
    Memory.lookup (Memory.write m k v) j = Memory.lookup m j := by
  induction m with
  | nil => simp [Memory.write, Memory.lookup, Ne.symm h]
  | cons c m ih =>
    obtain ⟨a, b⟩ := c
    unfold Memory.write
    split
    · simp [Memory.lookup, Ne.symm h]
    · split
      · subst_vars
        simp [Memory.lookup, Ne.symm h]
      · simp only [Memory.lookup, ih]

/-! ### Several bytes -/

theorem Memory.lookup_writeBytes (bs : List Byte) (m : Memory) (k j : Nat) :
    Memory.lookup (Memory.writeBytes m k bs) j =
      if k ≤ j ∧ j < k + bs.length then bs[j - k]? else Memory.lookup m j := by
  induction bs generalizing m k with
  | nil => simp [Memory.writeBytes, show ¬ (k ≤ j ∧ j < k) by omega]
  | cons b bs ih =>
    rw [Memory.writeBytes, ih]
    by_cases hj : j = k
    · subst hj
      simp [Memory.lookup_write_same]
    · rw [Memory.lookup_write_other _ _ _ _ hj]
      by_cases hin : k ≤ j ∧ j < k + (bs.length + 1)
      · have h1 : k + 1 ≤ j ∧ j < k + 1 + bs.length := by omega
        have h2 : j - k = (j - (k + 1)) + 1 := by omega
        simp only [h1, and_self, if_true, List.length_cons, hin]
        rw [h2, List.getElem?_cons_succ]
      · have h1 : ¬ (k + 1 ≤ j ∧ j < k + 1 + bs.length) := by omega
        simp only [h1, if_false, List.length_cons, hin]

/-! ### The canonical form -/

theorem Memory.wf_cons_iff (a : Nat) (b : Byte) (m : Memory) :
    Memory.wf ((a, b) :: m) = true ↔ (∀ c ∈ m.head?, a < c.1) ∧ Memory.wf m = true := by
  cases m with
  | nil => simp [Memory.wf]
  | cons c m => obtain ⟨x, y⟩ := c; simp [Memory.wf]

theorem Memory.head_write (m : Memory) (k : Nat) (v : Byte) :
    ∀ c ∈ (Memory.write m k v).head?, c.1 = k ∨ c ∈ m.head? := by
  cases m with
  | nil => simp [Memory.write]
  | cons c m =>
    obtain ⟨a, b⟩ := c
    unfold Memory.write
    split
    · simp
    · split <;> simp

theorem Memory.wf_write (m : Memory) (k : Nat) (v : Byte) (h : Memory.wf m = true) :
    Memory.wf (Memory.write m k v) = true := by
  induction m with
  | nil => rfl
  | cons c m ih =>
    obtain ⟨a, b⟩ := c
    unfold Memory.write
    rw [Memory.wf_cons_iff] at h
    split
    · rw [Memory.wf_cons_iff]
      refine ⟨?_, (Memory.wf_cons_iff _ _ _).2 h⟩
      simpa
    · split
      · subst_vars
        exact (Memory.wf_cons_iff _ _ _).2 h
      · rw [Memory.wf_cons_iff]
        refine ⟨fun c hc => ?_, ih h.2⟩
        rcases Memory.head_write m k v c hc with hk | hm
        · omega
        · exact h.1 c hm

theorem Memory.wf_writeBytes (bs : List Byte) (m : Memory) (k : Nat) (h : Memory.wf m = true) :
    Memory.wf (Memory.writeBytes m k bs) = true := by
  induction bs generalizing m k with
  | nil => exact h
  | cons b bs ih => exact ih _ _ (Memory.wf_write _ _ _ h)

/-! ### Inside the buffer -/

theorem Memory.mem_write (m : Memory) (k : Nat) (v : Byte) (c : Host.Cell) (h : c ∈ Memory.write m k v) :
    c.1 = k ∨ c ∈ m := by
  induction m with
  | nil => simp [Memory.write] at h; simp [h]
  | cons d m ih =>
    obtain ⟨a, b⟩ := d
    unfold Memory.write at h
    split at h
    · rcases List.mem_cons.1 h with rfl | h
      · exact .inl rfl
      · exact .inr h
    · split at h
      · rcases List.mem_cons.1 h with rfl | h
        · exact .inl rfl
        · exact .inr (List.mem_cons_of_mem _ h)
      · rcases List.mem_cons.1 h with rfl | h
        · exact .inr List.mem_cons_self
        · exact (ih h).imp id (List.mem_cons_of_mem _)

theorem Memory.mem_writeBytes (bs : List Byte) (m : Memory) (k : Nat) (c : Host.Cell)
    (h : c ∈ Memory.writeBytes m k bs) : (k ≤ c.1 ∧ c.1 < k + bs.length) ∨ c ∈ m := by
  induction bs generalizing m k with
  | nil => exact .inr h
  | cons b bs ih =>
    simp only [List.length_cons]
    rcases ih _ _ h with h | h
    · left; omega
    · exact (Memory.mem_write m k b c h).imp (by omega) id

/-! ### Bytes of the frame buffer -/

/-- What MemWrite does to every byte of FB (00_scope.md R9). -/
theorem fbByte_fbStore (k : Nat) (bs : List Byte) (s : State) (j : Nat) :
    fbByte (fbStore k bs s) j = if k ≤ j ∧ j < k + bs.length then bs.getD (j - k) 0 else fbByte s j := by
  unfold fbByte
  rw [fbStore_fb, Memory.lookup_writeBytes, fbStore_fbEpoch]
  by_cases h : k ≤ j ∧ j < k + bs.length
  · have hj : j - k < bs.length := by omega
    simp [h, hj, List.getD_eq_getElem?_getD]
  · simp [h]

/-- A byte of FB depends on the cells and the draw alone. -/
theorem fbByte_congr {s t : State} (h : t.fb = s.fb) (he : t.fbEpoch = s.fbEpoch) (k : Nat) :
    fbByte t k = fbByte s k := by
  unfold fbByte
  rw [h, he]

theorem fbBytes_congr {s t : State} (k n : Nat) (h : ∀ j, k ≤ j → j < k + n → fbByte t j = fbByte s j) :
    fbBytes t k n = fbBytes s k n := by
  unfold fbBytes
  refine List.map_congr_left fun i hi => h _ (by omega) ?_
  have := List.mem_range.1 hi
  omega

@[simp] theorem fbBytes_length (s : State) (k n : Nat) : (fbBytes s k n).length = n := by simp [fbBytes]

theorem fbBytes_getElem? (s : State) (k n i : Nat) (h : i < n) : (fbBytes s k n)[i]? = some (fbByte s (k + i)) := by
  simp [fbBytes, h]

@[simp] theorem fbByte_setStream (t : CkStream) (s : State) (k : Nat) : fbByte (setStream t s) k = fbByte s k := rfl
@[simp] theorem fbByte_finalize (s : State) (k : Nat) : fbByte (finalize s) k = fbByte s k :=
  fbByte_congr (finalize_fb s) (finalize_fbEpoch s) k
@[simp] theorem fbByte_sumBytes (bs : List Byte) (s : State) (k : Nat) : fbByte (sumBytes bs s) k = fbByte s k :=
  fbByte_congr (sumBytes_fb s bs) (sumBytes_fbEpoch s bs) k
@[simp] theorem fbByte_setFrameValid (v : Bool) (s : State) (k : Nat) : fbByte (setFrameValid v s) k = fbByte s k := rfl
@[simp] theorem fbByte_setLen (n : Nat) (s : State) (k : Nat) : fbByte (setLen n s) k = fbByte s k := rfl
@[simp] theorem fbByte_setVerdict (m sh : Bool) (s : State) (k : Nat) : fbByte (setVerdict m sh s) k = fbByte s k := rfl
@[simp] theorem fbByte_recordError (c : ErrCode) (s : State) (k : Nat) : fbByte (recordError c s) k = fbByte s k := rfl
@[simp] theorem fbByte_clearError (s : State) (k : Nat) : fbByte (clearError s) k = fbByte s k := rfl
@[simp] theorem fbByte_appendOut (e : OutEntry) (s : State) (k : Nat) : fbByte (appendOut e s) k = fbByte s k := rfl
@[simp] theorem fbByte_reply (r : Reply) (s : State) (k : Nat) : fbByte (reply r s) k = fbByte s k := rfl
@[simp] theorem fbByte_setHost (l : List BusEvent) (s : State) (k : Nat) : fbByte (setHost l s) k = fbByte s k := rfl
@[simp] theorem fbByte_consumeSink (s : State) (k : Nat) : fbByte (consumeSink s) k = fbByte s k :=
  fbByte_congr (consumeSink_fb s) (consumeSink_fbEpoch s) k

end Sys2Proof.Machine
end

