-- ==== Sys2Proof/Laws/Frame.lean ====
section
/-! SUPPORT. The checksum field of byte sequences and of frames, and what the shared procedure of BUILD and RESUM leaves (40_checksum.md R111, 41_echo.md R123). -/

namespace Sys2Proof.Machine

/-! ### Two-byte fields -/

theorem halfOfBytes_bytes16 (v : Half) : halfOfBytes (v.extractLsb' 8 8) (v.extractLsb' 0 8) = v := by
  unfold halfOfBytes
  change (v.extractLsb' 8 8 ++ v.extractLsb' 0 8 : BitVec (8 + 8)) = v
  ext i hi
  rw [BitVec.getElem_append]
  split
  · rw [BitVec.getElem_extractLsb', Nat.zero_add, BitVec.getLsbD_eq_getElem hi]
  · rw [BitVec.getElem_extractLsb', show 8 + (i - 8) = i by omega, BitVec.getLsbD_eq_getElem hi]

/-- The high byte of two bytes put together big-endian (20_memory.md R56). -/
@[simp] theorem halfOfBytes_high (hi lo : Byte) : (halfOfBytes hi lo).extractLsb' 8 8 = hi := by
  unfold halfOfBytes
  ext i h
  rw [BitVec.getElem_extractLsb', BitVec.getLsbD_append]
  simp
  exact BitVec.getLsbD_eq_getElem h

/-- The low byte of two bytes put together big-endian (20_memory.md R56). -/
@[simp] theorem halfOfBytes_low (hi lo : Byte) : (halfOfBytes hi lo).extractLsb' 0 8 = lo := by
  unfold halfOfBytes
  ext i h
  rw [BitVec.getElem_extractLsb', BitVec.getLsbD_append]
  simp [h]

@[simp] theorem bytes16_length (v : Half) : (bytes16 v).length = 2 := rfl
@[simp] theorem bytes32_length (v : Word) : (bytes32 v).length = 4 := rfl
@[simp] theorem zeroField_length (bs : List Byte) : (zeroField bs).length = bs.length := by simp [zeroField]

/-! ### FRAME_CAP, LEN and the frame under updates -/

theorem frameCap_congr {s t : State} (h : t.cap = s.cap) : frameCap t = frameCap s := by unfold frameCap; rw [h]
theorem frameLen_congr {s t : State} (h : t.len = s.len) : frameLen t = frameLen s := by unfold frameLen; rw [h]

theorem frameCap_le (s : State) : frameCap s ≤ 65535 := by
  have := s.cap.excess.isLt
  unfold frameCap FrameCap.bytes
  omega

theorem twenty_le_frameCap (s : State) : 20 ≤ frameCap s := by
  unfold frameCap FrameCap.bytes
  omega

/-- The frame depends on LEN and the frame's bytes alone. -/
theorem frame_congr {s t : State} (hl : t.len = s.len) (hb : ∀ j, j < frameLen s → fbByte t j = fbByte s j) :
    frame t = frame s := by
  unfold frame
  rw [frameLen_congr hl]
  exact fbBytes_congr _ _ fun j _ hj => hb j (by omega)

@[simp] theorem frame_length (s : State) : (frame s).length = frameLen s := fbBytes_length s 0 _

/-! ### Zeroing and patching the checksum field -/

theorem zeroField_eq_self (bs : List Byte) (h2 : bs.getD 2 0 = 0) (h3 : bs.getD 3 0 = 0) : zeroField bs = bs := by
  match bs with
  | [] | [_] | [_, _] => rfl
  | [a, b, c] => simp_all [zeroField]
  | a :: b :: c :: d :: rest => simp_all [zeroField]

/-- Zeroing the field undoes a patch of it. -/
theorem zeroField_patch (bs : List Byte) (x y : Byte) : zeroField ((bs.set 2 x).set 3 y) = zeroField bs := by
  match bs with
  | [] | [_] | [_, _] | [_, _, _] => rfl
  | a :: b :: c :: d :: rest => rfl

/-- A byte sequence whose zero checksum field is patched with its own checksum is a valid packet. -/
theorem validPacket_patch (bs : List Byte) (h : 4 ≤ bs.length) (h2 : bs.getD 2 0 = 0) (h3 : bs.getD 3 0 = 0) :
    ValidPacket ((bs.set 2 ((csum bs).extractLsb' 8 8)).set 3 ((csum bs).extractLsb' 0 8)) := by
  refine ⟨by simpa, ?_⟩
  rw [zeroField_patch, zeroField_eq_self bs h2 h3]
  match bs, h with
  | a :: b :: c :: d :: rest, _ => exact halfOfBytes_bytes16 _

theorem fbBytes_getD (s : State) (k n i : Nat) (h : i < n) : (fbBytes s k n).getD i 0 = fbByte s (k + i) := by
  rw [List.getD_eq_getElem?_getD, fbBytes_getElem? s k n i h]
  rfl

/-- MemWrite of two bytes inside a range of bytes. -/
theorem fbBytes_fbStore_pair (s : State) (x y : Byte) (n : Nat) :
    fbBytes (fbStore 2 [x, y] s) 0 n = ((fbBytes s 0 n).set 2 x).set 3 y := by
  apply List.ext_getElem?
  intro i
  by_cases hi : i < n
  · rw [fbBytes_getElem? _ _ _ _ hi, fbByte_fbStore, List.getElem?_set, List.getElem?_set,
      fbBytes_getElem? _ _ _ _ hi]
    by_cases h3 : i = 3
    · subst h3; simp [hi]
    · by_cases h2 : i = 2
      · subst h2; simp [hi]
      · have : ¬ (2 ≤ 0 + i ∧ 0 + i < 2 + [x, y].length) := by simp; omega
        simp [Ne.symm h2, Ne.symm h3]
        omega
  · simp [hi]

/-! ### The shared procedure of BUILD and RESUM -/

/-- The frame after the patch: the bytes summed, with their checksum in the field (41_echo.md R123). -/
theorem fbBytes_sumAndPatch (n : Nat) (s : State) :
    fbBytes (sumAndPatch n s) 0 n =
      ((fbBytes s 0 n).set 2 ((csum (fbBytes s 0 n)).extractLsb' 8 8)).set 3
        ((csum (fbBytes s 0 n)).extractLsb' 0 8) := by
  unfold sumAndPatch
  simp only [sumBytes_csum, streamChecksum_ofBytes]
  rw [fbBytes_congr (s := fbStore 2 (bytes16 (csum (fbBytes s 0 n))) (sumBytes (fbBytes s 0 n) s)) 0 n
    (fun j _ _ => fbByte_setFrameValid true _ j)]
  rw [bytes16, fbBytes_fbStore_pair, fbBytes_congr (s := s) 0 n (fun j _ _ => fbByte_sumBytes _ s j)]

/-- A byte outside the checksum field is not changed by the patch. -/
theorem fbByte_sumAndPatch (n : Nat) (s : State) (k : Nat) (h : k ≠ 2 ∧ k ≠ 3) :
    fbByte (sumAndPatch n s) k = fbByte s k := by
  unfold sumAndPatch
  rw [fbByte_setFrameValid, fbByte_fbStore, if_neg (by simp; omega), fbByte_sumBytes]

@[simp] theorem sumAndPatch_frameValid (n : Nat) (s : State) : (sumAndPatch n s).frameValid = true := by
  simp [sumAndPatch]

@[simp] theorem sumAndPatch_csum (n : Nat) (s : State) : (sumAndPatch n s).csum = csum (fbBytes s 0 n) := by
  simp [sumAndPatch, streamChecksum_ofBytes]

@[simp] theorem stream_sumAndPatch (n : Nat) (s : State) :
    stream (sumAndPatch n s) = pushBytes emptyStream (fbBytes s 0 n) := by
  simp [sumAndPatch, stream]

/-- The patched frame is a valid packet when its field was zero and all of it was summed. -/
theorem validPacket_sumAndPatch (n : Nat) (s : State) (h : 4 ≤ n) (h2 : fbByte s 2 = 0) (h3 : fbByte s 3 = 0) :
    ValidPacket (fbBytes (sumAndPatch n s) 0 n) := by
  rw [fbBytes_sumAndPatch]
  refine validPacket_patch _ (by simpa) ?_ ?_
  · rw [fbBytes_getD _ _ _ _ (by omega), Nat.zero_add, h2]
  · rw [fbBytes_getD _ _ _ _ (by omega), Nat.zero_add, h3]

/-! ### What the shared procedure leaves unchanged -/

@[simp] theorem sumAndPatch_ident (n : Nat) (s : State) : (sumAndPatch n s).ident = s.ident := by simp [sumAndPatch]
@[simp] theorem sumAndPatch_seqNum (n : Nat) (s : State) : (sumAndPatch n s).seqNum = s.seqNum := by simp [sumAndPatch]
@[simp] theorem sumAndPatch_orig (n : Nat) (s : State) : (sumAndPatch n s).orig = s.orig := by simp [sumAndPatch]
@[simp] theorem sumAndPatch_recv (n : Nat) (s : State) : (sumAndPatch n s).recv = s.recv := by simp [sumAndPatch]
@[simp] theorem sumAndPatch_xmit (n : Nat) (s : State) : (sumAndPatch n s).xmit = s.xmit := by simp [sumAndPatch]
@[simp] theorem sumAndPatch_plen (n : Nat) (s : State) : (sumAndPatch n s).plen = s.plen := by simp [sumAndPatch]
@[simp] theorem sumAndPatch_len (n : Nat) (s : State) : (sumAndPatch n s).len = s.len := by simp [sumAndPatch]
@[simp] theorem sumAndPatch_err (n : Nat) (s : State) : (sumAndPatch n s).err = s.err := by simp [sumAndPatch]
@[simp] theorem sumAndPatch_errCode (n : Nat) (s : State) : (sumAndPatch n s).errCode = s.errCode := by simp [sumAndPatch]
@[simp] theorem sumAndPatch_vdone (n : Nat) (s : State) : (sumAndPatch n s).vdone = s.vdone := by simp [sumAndPatch]
@[simp] theorem sumAndPatch_matched (n : Nat) (s : State) : (sumAndPatch n s).matched = s.matched := by simp [sumAndPatch]
@[simp] theorem sumAndPatch_short (n : Nat) (s : State) : (sumAndPatch n s).short = s.short := by simp [sumAndPatch]
@[simp] theorem sumAndPatch_cap (n : Nat) (s : State) : (sumAndPatch n s).cap = s.cap := by simp [sumAndPatch]
@[simp] theorem sumAndPatch_out (n : Nat) (s : State) : (sumAndPatch n s).out = s.out := by simp [sumAndPatch]
@[simp] theorem sumAndPatch_fbEpoch (n : Nat) (s : State) : (sumAndPatch n s).fbEpoch = s.fbEpoch := by simp [sumAndPatch]
@[simp] theorem sumAndPatch_sink (n : Nat) (s : State) : (sumAndPatch n s).sink = s.sink := by simp [sumAndPatch]
@[simp] theorem sumAndPatch_sinkDraws (n : Nat) (s : State) : (sumAndPatch n s).sinkDraws = s.sinkDraws := by simp [sumAndPatch]
@[simp] theorem sumAndPatch_host (n : Nat) (s : State) : (sumAndPatch n s).host = s.host := by simp [sumAndPatch]
@[simp] theorem sumAndPatch_replies (n : Nat) (s : State) : (sumAndPatch n s).replies = s.replies := by simp [sumAndPatch]

/-! ### The zeroed view -/

/-- The view of 40_checksum.md R111, written by index, is the frame with its field zeroed. -/
theorem zeroedView_eq (s : State) (n : Nat) : zeroedView s n = zeroField (fbBytes s 0 n) := by
  apply List.ext_getElem?
  intro i
  unfold zeroedView zeroField
  by_cases hi : i < n
  · rw [List.getElem?_map, List.getElem?_range hi, List.getElem?_set, List.getElem?_set, fbBytes_getElem? _ _ _ _ hi]
    by_cases h3 : i = 3
    · subst h3; simp [hi]
    · by_cases h2 : i = 2
      · subst h2; simp [hi]
      · simp [h2, h3, Ne.symm h2, Ne.symm h3]
  · simp [hi]

/-- Writing zero into the checksum field gives the zeroed view. -/
theorem fbBytes_zeroStore (s : State) (n : Nat) :
    fbBytes (fbStore 2 (bytes16 0) s) 0 n = zeroField (fbBytes s 0 n) := by
  rw [show bytes16 0 = [0, 0] from by decide, fbBytes_fbStore_pair]
  rfl

/-- The stored checksum of a frame of at least 4 bytes is FB[2] ++ FB[3]. -/
theorem storedField_fbBytes (s : State) (n : Nat) (h : 4 ≤ n) :
    storedField (fbBytes s 0 n) = halfOfBytes (fbByte s 2) (fbByte s 3) := by
  unfold storedField
  rw [fbBytes_getD _ _ _ _ (by omega), fbBytes_getD _ _ _ _ (by omega)]

end Sys2Proof.Machine
end

