-- ==== Sys2Proof/Laws/Ports.lean ====
section
/-! SUPPORT. The host's offsets, and that two offsets never share a bus address (10_state.md R23, 20_memory.md R51, R52). -/

namespace Sys2Proof.Machine

@[simp] theorem regAt_offset (r : Reg) : regAt (Reg.offset r) = some r := by cases r <;> rfl

/-- A register is reached at its own offset alone (20_memory.md R51). -/
theorem regAt_eq_some {off : Word} {r : Reg} (h : regAt off = some r) : off = Reg.offset r := by
  apply BitVec.eq_of_toNat_eq
  unfold regAt at h
  split at h <;> simp_all [Reg.offset] <;> subst_vars <;> simp_all

/-- An index of FB is reached at its own offset alone (20_memory.md R52). -/
theorem fbIndex_eq_some {off : Word} {s : State} {k : Nat} (h : fbIndex off s = some k) :
    k < frameCap s ∧ off = fbOffset k := by
  unfold fbIndex at h
  split at h
  · simp only [Option.some.injEq] at h
    refine ⟨by omega, BitVec.eq_of_toNat_eq ?_⟩
    have := off.isLt
    simp only [fbOffset, BitVec.toNat_ofNat]
    omega
  · simp at h

theorem fbIndex_fbOffset {s : State} {k : Nat} (h : k < frameCap s) : fbIndex (fbOffset k) s = some k := by
  have hc := frameCap_le s
  have ho : (fbOffset k).toNat = 0x10000 + k := by
    simp only [fbOffset, BitVec.toNat_ofNat]
    omega
  unfold fbIndex
  rw [ho, if_pos (by omega)]
  simp

/-- Wherever BASE lies, offsets have distinct bus addresses (00_scope.md R7). -/
theorem busAddress_injective (o p : Word) (h : Config.busAddress o = Config.busAddress p) : o = p := by
  unfold Config.busAddress at h
  exact BitVec.eq_of_toNat_eq (by omega)

end Sys2Proof.Machine
end

