-- ==== Sys2Proof/Laws/Step.lean ====
section
/-! SUPPORT. What a command and a step can do, said once: inversion lemmas for the shared operations, the meanings and step. -/

namespace Sys2Proof.Machine

variable {s t : State}

/-! ### Commands -/

/-- Everything a build can do (41_echo.md R123). -/
theorem buildFrame_cases {type : Byte} {n : Nat} {body : List Byte} (h : buildFrame type n body s = .next t) :
    (n > frameCap s ∧ t = recordError .frameOverflow s)
      ∨ (n ≤ frameCap s ∧ t = sumAndPatch n (setLen n (fbStore 8 body (fbStore 0 (messageHead type s) s)))) := by
  unfold buildFrame raiseError at h
  split at h
  · exact .inl ⟨‹_›, (Host.Outcome.next.inj h).symm⟩
  · exact .inr ⟨by omega, (Host.Outcome.next.inj h).symm⟩

/-- Everything CK_BUF can do (40_checksum.md R110). -/
theorem execCkBuf_cases (h : execCkBuf s = .next t) :
    (frameLen s > frameCap s ∧ t = recordError .frameOverflow s)
      ∨ (frameLen s ≤ frameCap s ∧ t = sumBytes (frame s) s) := by
  unfold execCkBuf raiseError at h
  split at h
  · exact .inl ⟨‹_›, (Host.Outcome.next.inj h).symm⟩
  · exact .inr ⟨by omega, (Host.Outcome.next.inj h).symm⟩

/-- Everything VALIDATE can do (40_checksum.md R111). -/
theorem execValidate_cases (h : execValidate s = .next t) :
    (frameLen s > frameCap s ∧ t = recordError .frameOverflow s)
      ∨ (frameLen s ≤ frameCap s ∧ frameLen s < 4 ∧ t = setVerdict false true s)
      ∨ (frameLen s ≤ frameCap s ∧ 4 ≤ frameLen s
        ∧ t = setVerdict (decide (csum (zeroField (frame s)) = halfOfBytes (fbByte s 2) (fbByte s 3))) false
            (sumBytes (zeroField (frame s)) s)) := by
  unfold execValidate raiseError at h
  split at h
  · exact .inl ⟨‹_›, (Host.Outcome.next.inj h).symm⟩
  · split at h
    · exact .inr (.inl ⟨by omega, ‹_›, (Host.Outcome.next.inj h).symm⟩)
    · refine .inr (.inr ⟨by omega, by omega, ?_⟩)
      rw [← streamChecksum_ofBytes, ← sumBytes_csum]
      exact (Host.Outcome.next.inj h).symm

/-- Everything RESUM can do (43_frame_control.md R151). -/
theorem execResum_cases (h : execResum s = .next t) :
    (frameLen s > frameCap s ∧ t = recordError .frameOverflow s)
      ∨ (frameLen s ≤ frameCap s ∧ frameLen s < 4 ∧ t = recordError .frameShort s)
      ∨ (frameLen s ≤ frameCap s ∧ 4 ≤ frameLen s ∧ t = sumAndPatch (frameLen s) (fbStore 2 (bytes16 0) s)) := by
  unfold execResum raiseError at h
  split at h
  · exact .inl ⟨‹_›, (Host.Outcome.next.inj h).symm⟩
  · split at h
    · exact .inr (.inl ⟨by omega, ‹_›, (Host.Outcome.next.inj h).symm⟩)
    · exact .inr (.inr ⟨by omega, by omega, (Host.Outcome.next.inj h).symm⟩)

/-- Everything EMIT can do (43_frame_control.md R152). -/
theorem execEmit_cases (h : execEmit s = .next t) :
    (frameLen s > frameCap s ∧ t = recordError .frameOverflow s)
      ∨ (frameLen s ≤ frameCap s ∧ s.frameValid = false ∧ t = recordError .staleFrame s)
      ∨ (frameLen s ≤ frameCap s ∧ s.frameValid = true ∧ sinkAnswer s = some .ok
        ∧ t = appendOut ⟨frame s, .ok⟩ (consumeSink s))
      ∨ (frameLen s ≤ frameCap s ∧ s.frameValid = true ∧ sinkAnswer s = some .error
        ∧ t = recordError .sinkError (appendOut ⟨frame s, .error⟩ (consumeSink s))) := by
  unfold execEmit raiseError at h
  split at h
  · exact .inl ⟨‹_›, (Host.Outcome.next.inj h).symm⟩
  · split at h
    · exact .inr (.inl ⟨by omega, ‹_›, (Host.Outcome.next.inj h).symm⟩)
    · have hv : s.frameValid = true := by simpa using ‹¬ s.frameValid = false›
      split at h
      · exact nomatch h
      · exact .inr (.inr (.inl ⟨by omega, hv, ‹_›, (Host.Outcome.next.inj h).symm⟩))
      · exact .inr (.inr (.inr ⟨by omega, hv, ‹_›, (Host.Outcome.next.inj h).symm⟩))

/-! ### A step -/

/-- A write to CMD of a word that decodes is the command; any other only records ILLEGAL_CMD
(10_state.md R24, 30_encoding.md R74). -/
theorem command_cases {c : Word} (h : command c s = .next t) :
    (∃ i, decode c = .instr i ∧ exec i s = .next t)
      ∨ (∃ r, decode c = .illegal r) ∧ t = recordError .illegalCmd s := by
  unfold command raiseError at h
  split at h
  · exact .inl ⟨_, ‹_›, h⟩
  · exact .inr ⟨⟨_, ‹_›⟩, (Host.Outcome.next.inj h).symm⟩

/-- The step that writes `c` to CMD (20_memory.md R54, R62). -/
theorem step_command {c : Word} {rest : List BusEvent}
    (h : s.host = .access (.wr32 (Reg.offset .cmd) c) :: rest) : step s = command c (setHost rest s) := by
  unfold step performNext
  simp only [h, performEvent, performAccess, hostWrite32, regAt_offset, writeReg]

/-- Everything a step can do: hold the state, reset, run a command, write a register, write a byte of FB,
read, or record an error of the access (20_memory.md R51 to R55). -/
theorem step_cases (h : step s = .next t) :
    (s.host = [] ∧ t = s)
      ∨ ∃ rest,
        (s.host = .reset :: rest ∧ t = resetBlock (setHost rest s))
        ∨ (∃ c i, s.host = .access (.wr32 (Reg.offset .cmd) c) :: rest ∧ decode c = .instr i
            ∧ exec i (setHost rest s) = .next t)
        ∨ (∃ r v, r ≠ .cmd ∧ s.host = .access (.wr32 (Reg.offset r) v) :: rest ∧ writeReg r v (setHost rest s) = .next t)
        ∨ (∃ k v, k < frameCap s ∧ s.host = .access (.wr8 (fbOffset k) v) :: rest ∧ t = writeFb k v (setHost rest s))
        ∨ (∃ a r, s.host = .access a :: rest ∧ (∀ off v, a ≠ .wr32 off v) ∧ (∀ off v, a ≠ .wr8 off v)
            ∧ t = reply r (setHost rest s))
        ∨ (∃ a r, s.host = .access a :: rest ∧ (∀ off v, a ≠ .wr32 off v) ∧ (∀ off v, a ≠ .wr8 off v)
            ∧ t = reply r (recordError .badAccess (setHost rest s)))
        ∨ (∃ a c, s.host = .access a :: rest ∧ nextCommand s = none ∧ (c = .illegalCmd ∨ c = .badAccess)
            ∧ t = recordError c (setHost rest s)) := by
  unfold step performNext at h
  split at h
  · exact .inl ⟨‹_›, (Host.Outcome.next.inj h).symm⟩
  · rename_i e rest he
    refine .inr ⟨rest, ?_⟩
    unfold performEvent performAccess at h
    split at h
    · rename_i a
      split at h
      · -- RD32
        rename_i off
        replace h := (Host.Outcome.next.inj h).symm
        unfold hostRead32 at h
        split at h
        · exact .inr (.inr (.inr (.inr (.inl ⟨_, _, he, by simp, by simp, h⟩))))
        · exact .inr (.inr (.inr (.inr (.inr (.inl ⟨_, _, he, by simp, by simp, h⟩)))))
      · -- WR32
        rename_i off v
        unfold hostWrite32 at h
        split at h
        · rename_i r hr
          obtain rfl := regAt_eq_some hr
          by_cases hc : r = .cmd
          · subst hc
            rcases command_cases h with ⟨i, hd, hx⟩ | ⟨⟨r, hd⟩, rfl⟩
            · exact .inr (.inl ⟨v, i, he, hd, hx⟩)
            · refine .inr (.inr (.inr (.inr (.inr (.inr ⟨_, _, he, ?_, .inl rfl, rfl⟩)))))
              simp [nextCommand, he, hd]
          · exact .inr (.inr (.inl ⟨r, v, hc, he, h⟩))
        · rename_i hr
          refine .inr (.inr (.inr (.inr (.inr (.inr ⟨_, _, he, ?_, .inr rfl, (Host.Outcome.next.inj h).symm⟩)))))
          have : off ≠ Reg.offset .cmd := fun hh => by simp [hh] at hr
          simp [nextCommand, he, this]
      · -- RD8
        rename_i off
        replace h := (Host.Outcome.next.inj h).symm
        unfold hostRead8 at h
        split at h
        · exact .inr (.inr (.inr (.inr (.inl ⟨_, _, he, by simp, by simp, h⟩))))
        · exact .inr (.inr (.inr (.inr (.inr (.inl ⟨_, _, he, by simp, by simp, h⟩)))))
      · -- WR8
        rename_i off v
        replace h := (Host.Outcome.next.inj h).symm
        unfold hostWrite8 at h
        split at h
        · rename_i k hk
          obtain ⟨hlt, rfl⟩ := fbIndex_eq_some hk
          exact .inr (.inr (.inr (.inl ⟨k, v, hlt, he, h⟩)))
        · refine .inr (.inr (.inr (.inr (.inr (.inr ⟨_, _, he, ?_, .inr rfl, h⟩)))))
          simp [nextCommand, he]
    · exact .inl ⟨he, (Host.Outcome.next.inj h).symm⟩

/-- A run that ends in a next state is a first step and the run after it (20_memory.md R62). -/
theorem core_run_succ {n : Nat} (h : core.run (n + 1) s = .next t) : ∃ u, step s = .next u ∧ core.run n u = .next t := by
  simp only [Host.Core.run] at h
  split at h
  · exact ⟨_, ‹_›, h⟩
  · exact nomatch h
  · exact nomatch h

end Sys2Proof.Machine
end

