-- ==== Sys2Proof/Laws/Legal.lean ====
section
/-! SUPPORT. The parts of a legal state under the shared operations: what each operation keeps, said once (10_state.md R28 to R36, 43_frame_control.md R150). -/

namespace Sys2Proof.Machine

variable {s t : State}

theorem FbLegal_congr (h : t.fb = s.fb) (hc : t.cap = s.cap) (hl : FbLegal s) : FbLegal t := by
  unfold FbLegal
  rw [h, frameCap_congr hc]
  exact hl

/-- A MemWrite inside the buffer keeps FB legal. -/
theorem FbLegal_fbStore {k : Nat} {bs : List Byte} (h : FbLegal s) (hb : k + bs.length ≤ frameCap s) :
    FbLegal (fbStore k bs s) := by
  refine ⟨Memory.wf_writeBytes _ _ _ h.1, fun c hc => ?_⟩
  rw [frameCap_congr (fbStore_cap s k bs)]
  rcases Memory.mem_writeBytes _ _ _ _ hc with h1 | h1
  · omega
  · exact h.2 c h1

/-- A fresh frame stays what it is when LEN, CAP and the frame's bytes stay. -/
theorem FreshFrameValid_congr (hv : t.frameValid = s.frameValid) (hl : t.len = s.len) (hc : t.cap = s.cap)
    (hb : ∀ j, j < frameLen s → fbByte t j = fbByte s j) (h : FreshFrameValid s) : FreshFrameValid t := by
  unfold FreshFrameValid
  rw [hv, frameLen_congr hl, frameCap_congr hc, frame_congr hl hb]
  exact h

theorem FreshFrameValid_of_stale (h : s.frameValid = false) : FreshFrameValid s := by
  simp [FreshFrameValid, h]

/-- Recording an error keeps a state legal. -/
theorem LegalState_recordError {c : ErrCode} (hc : c ≠ .none) (h : LegalState s) : LegalState (recordError c s) where
  errRecord := by
    have := h.errRecord
    unfold ErrRecordLegal at *
    rw [recordError_err, recordError_errCode]
    cases he : s.err <;> simp_all
  pend := h.pend
  verdict := h.verdict
  fb := FbLegal_congr rfl rfl h.fb
  fresh := FreshFrameValid_congr rfl rfl rfl (fun _ _ => rfl) h.fresh
  out := h.out

/-- Taking the host's next event keeps a state legal. -/
theorem LegalState_setHost {rest : List BusEvent} (h : LegalState s) : LegalState (setHost rest s) :=
  ⟨h.errRecord, h.pend, h.verdict, FbLegal_congr rfl rfl h.fb,
    FreshFrameValid_congr rfl rfl rfl (fun _ _ => rfl) h.fresh, h.out⟩

/-- A run over a buffer leaves PEND legal (10_state.md R36). -/
theorem PendLegal_sumBytes (bs : List Byte) : PendLegal (sumBytes bs s) := by
  unfold PendLegal
  rw [sumBytes_odd, sumBytes_pend]
  exact pushBytes_pend emptyStream bs fun _ => rfl

/-- The shared procedure of BUILD and RESUM makes a legal state with a fresh, valid frame
(41_echo.md R123, 40_checksum.md R113 (a)). -/
theorem LegalState_sumAndPatch {n : Nat} (he : ErrRecordLegal s) (hv : VerdictLegal s) (hf : FbLegal s)
    (ho : OutValid s) (hn : 4 ≤ n) (hc : n ≤ frameCap s) (hl : frameLen s = n) (z2 : fbByte s 2 = 0)
    (z3 : fbByte s 3 = 0) : LegalState (sumAndPatch n s) where
  errRecord := by simpa [ErrRecordLegal] using he
  pend := by
    have := PendLegal_sumBytes (s := s) (fbBytes s 0 n)
    exact this
  verdict := by simpa [VerdictLegal] using hv
  fb := by
    apply FbLegal_congr (s := fbStore 2 (bytes16 (csum (fbBytes s 0 n))) s)
    · simp [sumAndPatch, streamChecksum_ofBytes]
    · simp
    · exact FbLegal_fbStore hf (by simp; omega)
  fresh := by
    have hl' : frameLen (sumAndPatch n s) = n := by rw [frameLen_congr (sumAndPatch_len n s), hl]
    intro _
    unfold frame
    rw [hl', frameCap_congr (sumAndPatch_cap n s)]
    exact ⟨hc, validPacket_sumAndPatch n s hn z2 z3⟩
  out := by simpa [OutValid] using ho

end Sys2Proof.Machine
end

