-- ==== Sys2Proof/Laws/Build.lean ====
section
/-! SUPPORT. The builders' shared procedure: the bytes before the patch, and that a build leaves the message it was given (41_echo.md R122, R123). -/

namespace Sys2Proof.Machine

@[simp] theorem messageHead_length (type : Byte) (s : State) : (messageHead type s).length = 8 := rfl

/-- The bytes before the checksum: the head, then the body, then what was there. -/
theorem fbByte_message (type : Byte) (body : List Byte) (s : State) (k : Nat) :
    fbByte (fbStore 8 body (fbStore 0 (messageHead type s) s)) k =
      if k < 8 + body.length then (messageHead type s ++ body).getD k 0 else fbByte s k := by
  rw [fbByte_fbStore, fbByte_fbStore, messageHead_length]
  by_cases h1 : k < 8
  · rw [if_neg (by omega), if_pos (by omega), if_pos (by omega), List.getD_eq_getElem?_getD,
      List.getD_eq_getElem?_getD, List.getElem?_append_left (by simpa), Nat.sub_zero]
  · by_cases h2 : k < 8 + body.length
    · rw [if_pos (by omega), if_pos (by omega), List.getD_eq_getElem?_getD, List.getD_eq_getElem?_getD,
        List.getElem?_append_right (by simp; omega), messageHead_length]
    · rw [if_neg (by omega), if_neg (by omega), if_neg (by omega)]

/-- A build whose summed bytes are the message leaves that message, its checksum and its stream
(41_echo.md R123). -/
theorem builtFrom_sumAndPatch {type : Byte} {body stored : List Byte} {s : State} {n : Nat}
    (hn : n = 8 + body.length) (hc : n ≤ frameCap s)
    (hb : fbBytes (fbStore 8 stored (fbStore 0 (messageHead type s) s)) 0 n = messageHead type s ++ body)
    (hbeyond : ∀ k, n ≤ k → fbByte (fbStore 8 stored (fbStore 0 (messageHead type s) s)) k = fbByte s k) :
    BuiltFrom type body s (sumAndPatch n (setLen n (fbStore 8 stored (fbStore 0 (messageHead type s) s)))) := by
  have hcap := frameCap_le s
  have hm : messageHead type s ++ body = [type, 0, 0, 0] ++ bytes16 s.ident ++ bytes16 s.seqNum ++ body := by
    unfold messageHead
    rw [show bytes16 0 = [0, 0] from by decide]
    rfl
  have hb2 : fbBytes (setLen n (fbStore 8 stored (fbStore 0 (messageHead type s) s))) 0 n =
      [type, 0, 0, 0] ++ bytes16 s.ident ++ bytes16 s.seqNum ++ body := by
    rw [fbBytes_congr _ _ (fun j _ _ => fbByte_setLen n _ j), hb, hm]
  have hcs := sumAndPatch_csum n (setLen n (fbStore 8 stored (fbStore 0 (messageHead type s) s)))
  rw [hb2] at hcs
  refine ⟨?_, hcs, ?_, ?_, ?_, ?_, by simp, ?_, ?_, ?_, ?_⟩
  · rw [← hn, fbBytes_sumAndPatch, hcs, hb2]
    rfl
  · rw [stream_sumAndPatch, hb2]
  · have h : ∀ u, (sumAndPatch n u).odd = (stream (sumAndPatch n u)).odd := fun _ => rfl
    rw [h, stream_sumAndPatch, pushBytes_odd, fbBytes_length, hn]
    simp [emptyStream]
  · intro k hk
    rw [fbByte_sumAndPatch _ _ _ (by omega), fbByte_setLen, hbeyond k (by omega)]
  · simp [frameLen]
    omega
  all_goals simp [SameParameters, SameErrors, SameVerdict, SameOutside]

/-- An F0 row's word is the only command with its operation code (30_encoding.md R75 (b), (c)). -/
theorem onlyWord_f0 {op : Byte} {i : Instr} (hx : ∀ imm, decodeOp op imm = decodeF0 i imm) :
    OnlyWord op (op ++ (0 : Byte) ++ (0 : Half)) i := by
  constructor
  · unfold decode
    rw [rsvField_append, if_pos rfl, opField_append, immField_append, hx]
    rfl
  · intro d ho hne
    unfold decode
    by_cases hr : rsvField d = 0
    · rw [if_pos hr, ho, hx]
      unfold decodeF0
      by_cases hi : immField d = 0
      · exact absurd (by rw [word_eq_fields d, ho, hr, hi]) hne
      · rw [if_neg hi]
        exact ⟨_, rfl⟩
    · rw [if_neg hr]
      exact ⟨_, rfl⟩

end Sys2Proof.Machine
end

