-- ==== Sys2Proof/Laws/PerInstr.lean ====
section
/-! SUPPORT. Statements made for each instruction: the reserved field of every encoded command is 0 and its OP is the row's (30_encoding.md R70, R73). -/

namespace Sys2Proof.Laws.EncodedFields

/-- The encoding of a command has RSV = 0, its own opcode in OP, and IMM = 0 when its format is F0. -/
def Statement (i : Instr) : Prop :=
  rsvField (encode i) = 0 ∧ opField (encode i) = i.opcode ∧ (i.isF0 = true → immField (encode i) = 0)

theorem nop : Statement .nop := by simp [Statement, Instr.immediate]
theorem ckClear : Statement .ckClear := by simp [Statement, Instr.immediate]
theorem ckAdd16 (w : Half) : Statement (.ckAdd16 w) := by simp [Statement, Instr.isF0]
theorem ckAdd8 (b : Byte) : Statement (.ckAdd8 b) := by simp [Statement, Instr.isF0]
theorem ckFinal : Statement .ckFinal := by simp [Statement, Instr.immediate]
theorem ckBuf : Statement .ckBuf := by simp [Statement, Instr.immediate]
theorem validate : Statement .validate := by simp [Statement, Instr.immediate]
theorem buildEchoReq : Statement .buildEchoReq := by simp [Statement, Instr.immediate]
theorem buildEchoRep : Statement .buildEchoRep := by simp [Statement, Instr.immediate]
theorem buildTsReq : Statement .buildTsReq := by simp [Statement, Instr.immediate]
theorem buildTsRep : Statement .buildTsRep := by simp [Statement, Instr.immediate]
theorem resum : Statement .resum := by simp [Statement, Instr.immediate]
theorem emit : Statement .emit := by simp [Statement, Instr.immediate]
theorem clrErr : Statement .clrErr := by simp [Statement, Instr.immediate]

end Sys2Proof.Laws.EncodedFields
end

