-- ==== Sys2Proof/Tests/Slice0.lean ====
section
/-! SUPPORT. Tests: words written out from the encoding, the vectors of 95_test_vectors.md one step at a time, the checks of WellFormed refusing, and a witness for the hypotheses of each statement. -/

namespace Sys2Proof.Tests

open Sys2Proof.Machine

/-! ### Helpers -/

/-- From reset with FRAME_CAP = 64, as 95_test_vectors.md assumes. -/
def start : State := { State.reset with cap := ⟨44⟩ }

/-- A state whose frame is `bs`. -/
def holding (bs : List Byte) : State := setLen bs.length (fbStore 0 bs start)

/-- The source's Echo Request, fresh (V-BLD-1). -/
def echoFrame : List Byte := [0x08, 0x00, 0x96, 0x9B, 0x00, 0x01, 0x00, 0x01, 0x61, 0x62]
def fresh : State := setFrameValid true (holding echoFrame)

/-- ID = SEQ = 1, payload "ab" (program P1 before its build). -/
def echoReady : State := { fbStore 8 [0x61, 0x62] start with ident := 1, seqNum := 1, plen := 2 }

/-- ID = SEQ = 1 and the three timestamps of V-BLD-8. -/
def stampReady : State :=
  { start with ident := 1, seqNum := 1, orig := 0x01020304, recv := 0x05060708, xmit := 0x090A0B0C }

/-- The host about to make one access. -/
def about (a : HostAccess) (s : State) : State := setHost [.access a] s

/-- The next state, if there is one. -/
def after (o : Host.Outcome State Fault Refusal) : Option State :=
  match o with
  | .next s => some s
  | .fault _ => none
  | .refused _ => none

/-- STATUS after an outcome. -/
def statusAfter (o : Host.Outcome State Fault Refusal) : Option Word := (after o).map statusWord

/-- The frame after an outcome. -/
def frameAfter (o : Host.Outcome State Fault Refusal) : Option (List Byte) := (after o).map frame

/-! ### Decoding: each constructor's word, written out from 30_encoding.md R73 -/

theorem test_decode_nop : decode 0b00000000000000000000000000000000 = .instr .nop := by decide
theorem test_decode_ckClear : decode 0b00000001000000000000000000000000 = .instr .ckClear := by decide
theorem test_decode_ckAdd16 : decode 0b00000010000000001010101111001101 = .instr (.ckAdd16 0xABCD) := by decide
theorem test_decode_ckAdd8 : decode 0b00000011000000000000000011001101 = .instr (.ckAdd8 0xCD) := by decide
theorem test_decode_ckFinal : decode 0b00000100000000000000000000000000 = .instr .ckFinal := by decide
theorem test_decode_ckBuf : decode 0b00000101000000000000000000000000 = .instr .ckBuf := by decide
theorem test_decode_validate : decode 0b00000110000000000000000000000000 = .instr .validate := by decide
theorem test_decode_buildEchoReq : decode 0b00010000000000000000000000000000 = .instr .buildEchoReq := by decide
theorem test_decode_buildEchoRep : decode 0b00010001000000000000000000000000 = .instr .buildEchoRep := by decide
theorem test_decode_buildTsReq : decode 0b00010010000000000000000000000000 = .instr .buildTsReq := by decide
theorem test_decode_buildTsRep : decode 0b00010011000000000000000000000000 = .instr .buildTsRep := by decide
theorem test_decode_resum : decode 0b00010100000000000000000000000000 = .instr .resum := by decide
theorem test_decode_emit : decode 0b00100000000000000000000000000000 = .instr .emit := by decide
theorem test_decode_clrErr : decode 0b00111111000000000000000000000000 = .instr .clrErr := by decide

/-- V-ERR-1, V-ERR-3, V-ERR-4, V-ERR-5: the four ways a word is ILLEGAL. -/
theorem test_decode_illegal : decode 0x07000000 = .illegal .unassignedOp
    ∧ decode 0x01000001 = .illegal .immediateNotZero ∧ decode 0x03000100 = .illegal .highImmediateNotZero
    ∧ decode 0x02010000 = .illegal .reservedNotZero := by decide

theorem test_encode_words : encode (.ckAdd8 0x61) = 0x03000061 ∧ encode (.ckAdd16 0x6162) = 0x02006162
    ∧ encode .emit = 0x20000000 := by decide

theorem test_table_word : decodeTableWord 32 0x02006162 = some (.ckAdd16 0x6162)
    ∧ decodeTableWord 32 0x07000000 = none := by decide

/-- The first step after reset with a command queued runs that command. -/
theorem test_fetch_word : step (State.reset.withFetchWord 32 0x03000061) = exec (.ckAdd8 0x61) State.reset := rfl

/-! ### WellFormed refuses (30_encoding.md R79, R80) -/

theorem smoke_wr : Stmt.wellFormed (.wr .ident (2 ^ 32)) = false := by decide
theorem smoke_fb_index : Stmt.wellFormed (.fb (2 ^ 32) 0) = false := by decide
theorem smoke_fb_byte : Stmt.wellFormed (.fb 8 256) = false := by decide
theorem smoke_fbrd : Stmt.wellFormed (.fbrd (2 ^ 32)) = false := by decide
theorem smoke_f0 : Stmt.wellFormed (.f0 (.ckAdd8 1)) = false := by decide
theorem smoke_ckAdd8 : Stmt.wellFormed (.ckAdd8 256) = false := by decide
theorem smoke_ckAdd16 : Stmt.wellFormed (.ckAdd16 65536) = false := by decide
theorem smoke_cmd : Stmt.wellFormed (.cmd (2 ^ 32)) = false := by decide
theorem smoke_ckAdd32 : Pseudo.wellFormed (.ckAdd32 (2 ^ 32)) = false := by decide

/-- Every command is well-formed: its operand's type holds exactly the field's values. -/
theorem smoke_instr : Instr.wellFormed (.ckAdd16 0xFFFF) = true ∧ Instr.wellFormed (.ckAdd8 0xFF) = true := by decide

/-- 30_encoding.md R80: `payload 0x61, 0x62`. -/
theorem test_payload : assembleAll (Pseudo.expand (.payload [0x61, 0x62])) =
    some [.wr8 0x10008 0x61, .wr8 0x10009 0x62, .wr32 0x28 2] := by decide

/-! ### Arithmetic: V-ACC -/

theorem test_accAdd : accAdd 0xFFFFFFFF 0x0001 = 0x00000001 ∧ accAdd 0xFFFFFFFF 0xFFFF = 0x0000FFFF
    ∧ accAdd 0xFFFFFFFE 0x0001 = 0xFFFFFFFF := by decide

theorem test_fold16 : fold16 0xFFFFFFFF = 0xFFFF ∧ fold16 0x0001FFFF = 0x0001 ∧ fold16 0x0001FFFE = 0xFFFF := by
  decide

theorem test_csum : csum [] = 0xFFFF ∧ csum [0x00] = 0xFFFF ∧ csum [0xFF, 0xFF] = 0x0000 ∧ csum [0x61] = 0x9EFF
    ∧ csum [0x00, 0x01, 0xF2, 0x03, 0xF4, 0xF5, 0xF6, 0xF7] = 0x220D := by decide

/-! ### Commands -/

/-- V-STR-1 -/
theorem test_ckClear : after (exec .ckClear { start with acc := 0x12345, odd := true, pend := 0x61 }) = some start := by
  decide

/-- V-STR-3: re-pairing. -/
theorem test_ckAdd16_odd : after (exec (.ckAdd16 0x6263) { start with odd := true, pend := 0x61 }) =
    some { start with acc := 0x6162, odd := true, pend := 0x63 } := by decide

/-- R107's example. -/
theorem test_ckAdd16_even : after (exec (.ckAdd16 0x6162) { start with acc := 0x0800 }) =
    some { start with acc := 0x6962 } := by decide

/-- V-STR-2, and the partner of R108's example. -/
theorem test_ckAdd8 : after (exec (.ckAdd8 0x61) start) = some { start with odd := true, pend := 0x61 }
    ∧ after (exec (.ckAdd8 0x62) { start with odd := true, pend := 0x61 }) = some { start with acc := 0x6162 } := by
  decide

/-- V-STR-7: the virtual pad; the stream stays. -/
theorem test_ckFinal : after (exec .ckFinal { start with acc := 0x6162, odd := true, pend := 0x63 }) =
    some { start with acc := 0x6162, odd := true, pend := 0x63, csum := 0x3B9D } := by decide

/-- V-BUF-1 -/
theorem test_ckBuf : (after (exec .ckBuf (holding [0x08, 0, 0, 0, 0, 0x01, 0, 0x01, 0x61, 0x62]))).map
    (fun s => (s.acc, s.odd, s.csum)) = some (0x6964, false, 0x969B) := by decide

/-- V-BUF-4 -/
theorem test_ckBuf_overflow : statusAfter (exec .ckBuf { start with len := 65 }) = some 0x00000301 := by decide

/-- V-VAL-1 -/
theorem test_validate_match : statusAfter (exec .validate (holding echoFrame)) = some 0x0000001C := by decide

/-- V-VAL-5: not the RFC-style check. -/
theorem test_validate_zero : statusAfter (exec .validate (holding [0x08, 0, 0xFF, 0xFF, 0, 0, 0, 0, 0xF7, 0xFF])) =
    some 0x00000008 := by decide

/-- V-BLD-1, the source's vector. -/
theorem test_buildEchoReq : frameAfter (exec .buildEchoReq echoReady) = some echoFrame := by decide

/-- V-BLD-13 -/
theorem test_buildEchoReq_overflow : statusAfter (exec .buildEchoReq { start with plen := 57 }) = some 0x00000301 := by
  decide

/-- V-BLD-5 -/
theorem test_buildEchoRep : frameAfter (exec .buildEchoRep echoReady) =
    some [0x00, 0x00, 0x9E, 0x9B, 0x00, 0x01, 0x00, 0x01, 0x61, 0x62] := by decide

/-- V-BLD-11 -/
theorem test_buildTsReq : frameAfter (exec .buildTsReq { start with ident := 0xBEEF, seqNum := 7, orig := 0x05265BFF }) =
    some [0x0D, 0, 0xD2, 0xE3, 0xBE, 0xEF, 0, 0x07, 0x05, 0x26, 0x5B, 0xFF, 0, 0, 0, 0, 0, 0, 0, 0] := by decide

/-- V-BLD-8 -/
theorem test_buildTsRep : frameAfter (exec .buildTsRep stampReady) =
    some [0x0E, 0, 0xCD, 0xD3, 0, 1, 0, 1, 1, 2, 3, 4, 5, 6, 7, 8, 9, 10, 11, 12] := by decide

/-- V-CTL-1 -/
theorem test_resum : frameAfter (exec .resum (fbStore 9 [0x63] (holding echoFrame))) =
    some [0x08, 0x00, 0x96, 0x9A, 0x00, 0x01, 0x00, 0x01, 0x61, 0x63] := by decide

/-- V-CTL-2 -/
theorem test_resum_short : statusAfter (exec .resum { start with len := 3 }) = some 0x00000401 := by decide

/-- V-CTL-3 and V-CTL-5: the attempt stays in OUT, the error is recorded. -/
theorem test_emit : (after (exec .emit { fresh with sink := [.answers .error] })).map (fun s => (s.out, statusWord s)) =
    some ([⟨echoFrame, .error⟩], 0x00000605)
    ∧ (after (exec .emit { fresh with sink := [.answers .ok] })).map (fun s => (s.out, statusWord s)) =
    some ([⟨echoFrame, .ok⟩], 0x00000004) := by decide

/-- V-CTL-4 -/
theorem test_emit_stale : statusAfter (exec .emit start) = some 0x00000501 := by decide

/-- V-CTL-6 -/
theorem test_nop : after (exec .nop fresh) = some fresh := by decide

/-- V-CTL-7 -/
theorem test_clrErr : statusAfter (exec .clrErr { fresh with err := true, errCode := .sinkError }) = some 0x00000004 := by
  decide

/-! ### Host accesses: V-ERR -/

theorem test_illegal_command : statusAfter (step (about (.wr32 0 0x07000000) start)) = some 0x00000101 := by decide
theorem test_write_status : statusAfter (step (about (.wr32 4 1) start)) = some 0x00000201 := by decide
theorem test_read_unmapped : (after (step (about (.rd32 0x34) start))).map (fun s => (s.replies, statusWord s)) =
    some ([.data32 0], 0x00000201) := by decide
theorem test_write_beyond_fb : statusAfter (step (about (.wr8 0x10040 0) start)) = some 0x00000201 := by decide
theorem test_read_wide_fb : statusAfter (step (about (.rd32 0x10000) start)) = some 0x00000201 := by decide
theorem test_write_misaligned : statusAfter (step (about (.wr32 0x06 0) start)) = some 0x00000201 := by decide
theorem test_first_error_kept : statusAfter (exec .emit { start with err := true, errCode := .illegalCmd }) =
    some 0x00000101 := by decide
theorem test_read_cmd : (after (step (about (.rd32 0) start))).map (fun s => (s.replies, statusWord s)) =
    some ([.data32 0], 0) := by decide
theorem test_write_id : (after (step (about (.wr32 0x14 0xABCD1234) start))).map (readReg .ident) = some 0x00001234 := by
  decide

/-- Program P3's second line: a byte write inside the frame makes it stale. -/
theorem test_write_stales : statusAfter (step (about (.wr8 0x10009 0x63)
    { fresh with vdone := true, matched := true })) = some 0x00000018 := by decide

/-! ### Witnesses: the hypotheses of the statements can be met -/

/-- The written cells of reset are in canonical form. -/
theorem reset_memory_wf : Memory.wf State.reset.fb = true := by decide

/-- A legal state with a fresh frame. -/
theorem fresh_legal : LegalState fresh := by
  refine ⟨by decide, by decide, by decide, ⟨by decide, ?_⟩, ?_, by decide⟩
  · decide
  · intro _
    decide

theorem witness_DecodeEncodeRoundTrip : Instr.wellFormed (.ckAdd16 0xABCD) = true := by decide
theorem witness_EncodeDecodeRoundTrip : decode 0x030000FF = .instr (.ckAdd8 0xFF) := by decide
theorem witness_IllegalWordsRecordIllegalCmd :
    (about (.wr32 (Reg.offset .cmd) 0x07000000) start).host = .access (.wr32 (Reg.offset .cmd) 0x07000000) :: []
      ∧ decode 0x07000000 = .illegal .unassignedOp := by decide
theorem witness_IllegalWords_boundary : decode 0x0F000000 = .illegal .unassignedOp
    ∧ decode 0x15000000 = .illegal .unassignedOp ∧ decode 0x1F000000 = .illegal .unassignedOp
    ∧ decode 0x21000000 = .illegal .unassignedOp ∧ decode 0x3E000000 = .illegal .unassignedOp
    ∧ decode 0x40000000 = .illegal .unassignedOp ∧ decode 0xFF000000 = .illegal .unassignedOp
    ∧ decode 0x00010000 = .illegal .reservedNotZero ∧ decode 0x04000001 = .illegal .immediateNotZero
    ∧ decode 0x0300FF00 = .illegal .highImmediateNotZero := by decide
theorem witness_StepRunsDecodedCommand :
    (about (.wr32 (Reg.offset .cmd) 0x12000000) start).host = .access (.wr32 (Reg.offset .cmd) 0x12000000) :: []
      ∧ decode 0x12000000 = .instr .buildTsReq := by decide
theorem witness_StepWithoutEventHoldsState : start.host = [] := by decide
theorem witness_LegalReads_register :
    (about (.rd32 (Reg.offset .status)) start).host = .access (.rd32 (Reg.offset .status)) :: [] := by decide
theorem witness_LegalReads_lastByte : 63 < frameCap start
    ∧ (about (.rd8 (fbOffset 63)) start).host = .access (.rd8 (fbOffset 63)) :: [] := by decide
theorem witness_LegalReads_twice_register :
    (setHost [.access (.rd32 (Reg.offset .cap)), .access (.rd32 (Reg.offset .cap))] start).host =
      .access (.rd32 (Reg.offset .cap)) :: .access (.rd32 (Reg.offset .cap)) :: [] := by decide
theorem witness_LegalReads_twice_byte : 0 < frameCap start
    ∧ (setHost [.access (.rd8 (fbOffset 0)), .access (.rd8 (fbOffset 0))] start).host =
      .access (.rd8 (fbOffset 0)) :: .access (.rd8 (fbOffset 0)) :: [] := by decide
theorem witness_StatusLayout :
    (about (.wr32 (Reg.offset .status) 1) start).host = .access (.wr32 (Reg.offset .status) 1) :: [] := by decide
theorem witness_RegisterWrites (r : Reg) :
    (about (.wr32 (Reg.offset r) 20) fresh).host = .access (.wr32 (Reg.offset r) 20) :: [] := rfl
theorem witness_RegisterSpace_legal : (0x30 : Word).toNat < 0x10000 ∧ (0x30 : Word).toNat % 4 = 0
    ∧ (0x30 : Word).toNat ≤ 0x30 := by decide
theorem witness_RegisterSpace_write : (0x34 : Word).toNat < 0x10000
    ∧ ¬ ((0x34 : Word).toNat % 4 = 0 ∧ (0x34 : Word).toNat ≤ 0x30)
    ∧ (about (.wr32 0x34 0) start).host = .access (.wr32 0x34 0) :: [] := by decide
theorem witness_RegisterSpace_read : (0x2F : Word).toNat < 0x10000
    ∧ ¬ ((0x2F : Word).toNat % 4 = 0 ∧ (0x2F : Word).toNat ≤ 0x30)
    ∧ (about (.rd32 0x2F) start).host = .access (.rd32 0x2F) :: [] := by decide
theorem witness_RegisterSpace_bytes : (0xFFFF : Word).toNat < 0x10000
    ∧ (about (.wr8 0xFFFF 0) start).host = .access (.wr8 0xFFFF 0) :: []
    ∧ (about (.rd8 0xFFFF) start).host = .access (.rd8 0xFFFF) :: [] := by decide
theorem witness_FbWindow_wide : 0x10000 ≤ (0x10000 : Word).toNat
    ∧ (about (.wr32 0x10000 0) start).host = .access (.wr32 0x10000 0) :: []
    ∧ (about (.rd32 0x10000) start).host = .access (.rd32 0x10000) :: [] := by decide
theorem witness_FbWindow_last : 0x10000 ≤ (0x1003F : Word).toNat ∧ (0x1003F : Word).toNat < 0x10000 + frameCap start
    ∧ (about (.rd8 0x1003F) start).host = .access (.rd8 0x1003F) :: []
    ∧ (about (.wr8 0x1003F 7) start).host = .access (.wr8 0x1003F 7) :: [] := by decide
theorem witness_FbWindow_beyond : 0x10000 ≤ (0x10040 : Word).toNat ∧ 0x10000 + frameCap start ≤ (0x10040 : Word).toNat
    ∧ (about (.wr8 0x10040 7) start).host = .access (.wr8 0x10040 7) :: []
    ∧ (about (.rd8 0x10040) start).host = .access (.rd8 0x10040) :: [] := by decide
theorem witness_FbWriteStalesFrame_inside : 9 < frameCap fresh ∧ 9 < frameLen fresh
    ∧ (about (.wr8 (fbOffset 9) 0x63) fresh).host = .access (.wr8 (fbOffset 9) 0x63) :: [] := by decide
theorem witness_FbWriteStalesFrame_outside : 10 < frameCap fresh ∧ ¬ 10 < frameLen fresh
    ∧ (about (.wr8 (fbOffset 10) 0x63) fresh).host = .access (.wr8 (fbOffset 10) 0x63) :: [] := by decide
theorem witness_RaiseErrorKeepsFirstCode : start.err = false ∧ (recordError .staleFrame start).err = true := by decide
theorem witness_ErringCommandHasNoOtherEffect :
    exec .emit start = .next (recordError .staleFrame start) ∧ start.err = false
      ∧ (recordError .staleFrame start).err = true := ⟨rfl, by decide, by decide⟩
theorem witness_ErrorRecordClearedOnlyByClrErrOrReset :
    step (recordError .badAccess start) = .next (recordError .badAccess start)
      ∧ (recordError .badAccess start).err = true ∧ (recordError .badAccess start).host.head? ≠ some .reset
      ∧ nextCommand (recordError .badAccess start) ≠ some .clrErr := ⟨rfl, by decide, by decide, by decide⟩
theorem witness_OverflowPrecedes_frame : frameLen { start with len := 65 } > frameCap { start with len := 65 }
    ∧ Instr.resum ∈ [Instr.ckBuf, .validate, .resum, .emit] := by decide
theorem witness_OverflowPrecedes_short : frameLen { start with len := 3 } ≤ frameCap { start with len := 3 }
    ∧ frameLen { start with len := 3 } < 4 := by decide
theorem witness_OverflowPrecedes_stale : frameLen { start with len := 64 } ≤ frameCap { start with len := 64 }
    ∧ start.frameValid = false := by decide
theorem witness_OverflowPrecedes_kept : exec .nop { start with err := true, errCode := .frameShort } =
      .next { start with err := true, errCode := .frameShort } ∧ Instr.nop ≠ .resum
    ∧ (after (step (about (.wr32 4 1) { start with err := true, errCode := .frameShort }))).map State.errCode =
      some .frameShort
    ∧ nextCommand (about (.wr32 4 1) { start with err := true, errCode := .frameShort }) ≠ some .resum :=
  ⟨rfl, by decide, by decide, by decide⟩
theorem witness_OverflowPrecedes_build : echoLen { start with plen := 57 } > frameCap { start with plen := 57 }
    ∧ Instr.buildEchoRep ∈ [Instr.buildEchoReq, .buildEchoRep] := by decide
theorem witness_ResetWritesEveryRegister : (setHost [.reset] fresh).host = .reset :: [] := by decide
theorem witness_WordsPartitionBigEndian : 1 < (words [1, 2, 3]).length := by decide
theorem witness_AccAddIsEndAroundCarry :
    (((0xFFFFFFFF : Word).setWidth 33 : BitVec 33) + ((0xFFFF : Half).setWidth 33)).getLsbD 32 = true
      ∧ [(0xFFFF : Half)].length ≤ 65537 := by decide
theorem witness_FoldSixteenIsResidue : (0x0001FFFF : Word).toNat ≠ 0 ∧ 2 ≤ 2 := by decide
theorem witness_ChecksumIsOnesComplementOfUnboundedSum :
    ((words [0xFF, 0xFF, 0xFF]).map BitVec.toNat).sum ≤ 200000 := by decide
theorem witness_ChecksumLaws : [(1 : Half), 2].Perm [2, 1] ∧ ((([1, 2] : List Half).map BitVec.toNat).sum ≠ 0)
    ∧ csum [0xFF, 0xFF] = 0 ∧ ([0x61] : List Byte).length % 2 = 1 := ⟨List.Perm.swap 2 1 [], by decide, by decide, by decide⟩
theorem witness_CkClearEmptiesStream : start.acc = 0 ∧ start.odd = false ∧ start.pend = 0 := by decide
theorem witness_CkAddSixteenPushesTwoBytes : start.odd = false ∧ ({ start with odd := true } : State).odd = true
    ∧ opField 0x02010000 = 0x02 ∧ rsvField 0x02010000 ≠ 0 := by decide
theorem witness_CkAddEightPushesOneByte : start.odd = false ∧ ({ start with odd := true } : State).odd = true
    ∧ opField 0x03000100 = 0x03 ∧ (immField 0x03000100).extractLsb' 8 8 ≠ 0 := by decide
theorem witness_CkFinalWritesChecksumOnly : start.acc = 0 ∧ start.odd = false
    ∧ ({ start with acc := 0xFFFFFFFF } : State).acc = 0xFFFFFFFF := by decide
theorem witness_CkBufChecksumsFrame : frameLen fresh ≤ frameCap fresh ∧ frameLen start = 0
    ∧ frameLen { start with len := 65 } > frameCap { start with len := 65 } := by decide
theorem witness_Validate_boundary : frameLen { start with len := 65 } > frameCap { start with len := 65 }
    ∧ (frameLen { start with len := 3 } ≤ frameCap start ∧ frameLen { start with len := 3 } < 4)
    ∧ (frameLen { start with len := 4 } ≤ frameCap start ∧ 4 ≤ frameLen { start with len := 4 })
    ∧ (frameLen { start with len := 64 } ≤ frameCap start ∧ 4 ≤ frameLen { start with len := 64 }) := by decide
theorem witness_Validate_allZero : frameLen (holding [0, 0, 0, 0]) ≤ frameCap (holding [0, 0, 0, 0])
    ∧ 4 ≤ frameLen (holding [0, 0, 0, 0])
    ∧ ∀ k, k < frameLen (holding [0, 0, 0, 0]) → fbByte (holding [0, 0, 0, 0]) k = 0 := by decide
theorem witness_BuildEcho_fits : echoLen { start with plen := 56 } ≤ frameCap { start with plen := 56 } := by decide
theorem witness_BuildEcho_overflows : echoLen { start with plen := 57 } > frameCap { start with plen := 57 } := by decide
theorem witness_BuildEchoRepMakesFrame : start.ident = 0 ∧ start.seqNum = 0 ∧ start.plen = 0 := by decide
theorem witness_ResumPatchesChecksum : 4 ≤ frameLen fresh ∧ frameLen fresh ≤ frameCap fresh
    ∧ ValidPacket (frame fresh) := by decide
theorem witness_Resum_fresh : LegalState fresh ∧ fresh.frameValid = true := ⟨fresh_legal, by decide⟩
theorem witness_Resum_boundary : (4 ≤ frameLen { start with len := 4 } ∧ frameLen { start with len := 4 } ≤ frameCap start)
    ∧ (frameLen { start with len := 3 } ≤ frameCap start ∧ frameLen { start with len := 3 } < 4)
    ∧ frameLen { start with len := 65 } > frameCap start := by decide
theorem witness_EmitHandsFrameToSink_ok : frameLen { fresh with sink := [.answers .ok] } ≤ frameCap fresh
    ∧ fresh.frameValid = true ∧ sinkAnswer { fresh with sink := [.answers .ok] } = some .ok := by decide
theorem witness_EmitHandsFrameToSink_error : sinkAnswer { fresh with sink := [.answers .error] } = some .error := by
  decide
theorem witness_EmitHandsFrameToSink_errors : frameLen { start with len := 65 } > frameCap { start with len := 65 }
    ∧ frameLen start ≤ frameCap start ∧ start.frameValid = false := by decide
theorem witness_ClrErrClearsErrorRecord : start.err = false ∧ start.errCode = .none ∧ opField 0x3F000001 = 0x3F
    ∧ (0x3F000001 : Word) ≠ 0x3F000000 := by decide
theorem witness_EmitTwice_settled : frameLen { fresh with sink := [.answers .ok, .answers .error] } ≤ frameCap fresh
    ∧ fresh.frameValid = true ∧ sinkAnswer { fresh with sink := [.answers .ok, .answers .error] } = some .ok
    ∧ sinkAnswer (consumeSink { fresh with sink := [.answers .ok, .answers .error] }) = some .error := by decide
theorem witness_EmitTwice_freeDraws : sinkAnswer fresh = some (Config.sinkDraw 0)
    ∧ sinkAnswer (consumeSink fresh) = some (Config.sinkDraw 1) := ⟨rfl, rfl⟩
/-- EMIT, a read of STATUS, RESUM and a write of PLEN, EMIT. -/
def emitTwice : State :=
  setHost [.access (.wr32 0 0x20000000), .access (.rd32 4), .access (.wr32 0 0x14000000), .access (.wr32 0x28 9),
    .access (.wr32 0 0x20000000)] { fresh with sink := [.answers .ok, .answers .ok] }
theorem witness_EmitTwice_legal : LegalState emitTwice ∧ emitTwice.frameValid = true :=
  ⟨⟨fresh_legal.errRecord, fresh_legal.pend, fresh_legal.verdict, FbLegal_congr (s := fresh) rfl rfl fresh_legal.fb,
    FreshFrameValid_congr (s := fresh) rfl rfl rfl (fun _ _ => rfl) fresh_legal.fresh, fresh_legal.out⟩, by decide⟩
theorem witness_EmitTwice_between : ∀ e ∈ [BusEvent.access (.rd32 4), .access (.wr32 0 0x14000000),
    .access (.wr32 0x28 9)], LeavesFrame emitTwice e := by
  simp only [List.mem_cons, List.not_mem_nil, or_false, forall_eq_or_imp, forall_eq, LeavesFrame]
  decide
theorem witness_EmitTwice_run : (after (core.run (3 + 2) emitTwice)).map (fun t => (t.out, t.host)) =
    some ([⟨echoFrame, .ok⟩, ⟨echoFrame, .ok⟩], []) := by decide
theorem witness_EmitIsStuckWhenSinkNeverAnswers :
    frameLen { fresh with sink := [.never] } ≤ frameCap fresh ∧ fresh.frameValid = true
      ∧ sinkAnswer { fresh with sink := [.never] } = none
      ∧ exec .emit { fresh with sink := [.never] } = .fault .sinkNeverAnswers :=
  ⟨by decide, by decide, by decide, rfl⟩
theorem witness_EveryCommandButEmitCompletes : Instr.resum ≠ .emit
    ∧ sinkAnswer { fresh with sink := [.answers .ok] } = some .ok := by decide
theorem witness_StreamLaw : pushedAll [.ckAdd8 0x61, .ckAdd16 0x6263] = some [0x61, 0x62, 0x63]
    ∧ frameLen (holding [0x61, 0x62, 0x63]) ≤ frameCap (holding [0x61, 0x62, 0x63])
    ∧ frame (holding [0x61, 0x62, 0x63]) = [0x61, 0x62, 0x63] := by decide
theorem witness_SealedFrameValidates : SealSucceeds .buildEchoReq echoReady ∧ SealSucceeds .buildEchoRep echoReady
    ∧ SealSucceeds .buildTsReq start ∧ SealSucceeds .buildTsRep start ∧ SealSucceeds .resum fresh := by
  simp only [SealSucceeds]
  decide
/-- The host about to write FB[9] and then VALIDATE. -/
def corrupting : State :=
  setHost [.access (.wr8 (fbOffset 9) 0x63), .access (.wr32 (Reg.offset .cmd) 0x06000000)] fresh
theorem witness_CorruptedByteMismatches : LegalState corrupting ∧ corrupting.frameValid = true
    ∧ 9 < frameLen corrupting ∧ 9 ≠ 2 ∧ 9 ≠ 3 ∧ (0x63 : Byte) ≠ fbByte corrupting 9
    ∧ corrupting.host =
      .access (.wr8 (fbOffset 9) 0x63) :: .access (.wr32 (Reg.offset .cmd) 0x06000000) :: [] :=
  ⟨LegalState_setHost fresh_legal, by decide, by decide, by decide, by decide, by decide, rfl⟩
theorem witness_MemReadAfterMemWrite : ¬ (2 ≤ 1 ∧ 1 < 2 + ([0, 0] : List Byte).length)
    ∧ ¬ (2 ≤ 4 ∧ 4 < 2 + ([0, 0] : List Byte).length) := by decide
theorem witness_VariantTypes : (Instr.buildTsRep, (14 : Byte)) ∈
      [(Instr.buildEchoReq, (8 : Byte)), (.buildEchoRep, 0), (.buildTsReq, 13), (.buildTsRep, 14)]
    ∧ (∃ t, exec .buildTsRep stampReady = .next t) ∧ ∃ t, exec .buildEchoReq echoReady = .next t :=
  ⟨by decide, ⟨_, rfl⟩, ⟨_, rfl⟩⟩
theorem witness_StepKeepsLegalState : LegalState fresh ∧ ∃ t, step (about (.wr8 (fbOffset 9) 0x63) fresh) = .next t :=
  ⟨fresh_legal, ⟨_, rfl⟩⟩
/-- Each of the six commands makes a stale frame fresh. -/
theorem witness_Freshness_becomesFresh : ∀ c ∈ [(0x10000000 : Word), 0x11000000, 0x12000000, 0x13000000, 0x14000000,
      0x06000000],
    (about (.wr32 0 c) (holding [0, 0, 0xFF, 0xFF, 0, 0])).frameValid = false
      ∧ (after (step (about (.wr32 0 c) (holding [0, 0, 0xFF, 0xFF, 0, 0])))).map State.frameValid = some true := by
  simp only [List.mem_cons, List.not_mem_nil, or_false, forall_eq_or_imp, forall_eq]
  refine ⟨?_, ?_, ?_, ?_, ?_, ?_⟩ <;> decide
/-- Reset, a write to LEN, a write inside the frame and a mismatching VALIDATE make a fresh frame stale. -/
theorem witness_Freshness_becomesStale : ∀ e ∈ [BusEvent.reset, .access (.wr32 0x2C 20), .access (.wr8 0x10009 0x63)],
    (setHost [e] fresh).frameValid = true
      ∧ (after (step (setHost [e] fresh))).map State.frameValid = some false := by decide
theorem witness_Freshness_mismatch : (about (.wr32 0 0x06000000) (fbStore 9 [0x63] fresh)).frameValid = true
    ∧ (after (step (about (.wr32 0 0x06000000) (fbStore 9 [0x63] fresh)))).map State.frameValid = some false := by
  decide
theorem witness_OutGrowsOnlyByEmitOfFreshFrame :
    ((after (step (about (.wr32 0 0x20000000) { fresh with sink := [.answers .ok] }))).map State.out) =
      some [⟨echoFrame, .ok⟩] := by decide
theorem witness_VerdictWrittenOnlyByValidate : (about (.wr32 0 0) { fresh with vdone := true }).host.head? ≠ some .reset
    ∧ nextCommand (about (.wr32 0 0) fresh) ≠ some .validate
    ∧ (after (step (about (.wr32 0 0) { fresh with vdone := true }))).isSome = true := by decide
theorem witness_StreamWritersOnly : ((after (step (about (.wr32 0 0x03000061) start))).map State.odd) = some true
    ∧ ((after (step (about (.wr32 0 0x04000000) start))).map State.csum) = some 0xFFFF := by decide
theorem witness_CommandsKeepParameters : (∃ t, exec .resum fresh = .next t)
    ∧ Instr.resum ∉ [Instr.buildEchoReq, .buildEchoRep, .buildTsReq, .buildTsRep] ∧ Instr.resum ≠ .emit :=
  ⟨⟨_, rfl⟩, by decide, by decide⟩
/-- A host write, an Echo build and a Timestamp build at their last bytes, and RESUM at both of its bytes change FB. -/
theorem witness_FbWritten_host :
    (after (step (about (.wr8 (fbOffset 63) 0x63) (fbStore 63 [0] start)))).map (fbByte · 63) = some 0x63
      ∧ fbByte (fbStore 63 [0] start) 63 = 0 := by decide
theorem witness_FbWritten_echo : ∀ c ∈ [(0x10000000 : Word), 0x11000000],
    (after (step (about (.wr32 0 c) { fbStore 7 [0] start with seqNum := 1 }))).map (fbByte · 7) = some 1
      ∧ fbByte { fbStore 7 [0] start with seqNum := 1 } 7 = 0 := by
  simp only [List.mem_cons, List.not_mem_nil, or_false, forall_eq_or_imp, forall_eq]
  refine ⟨?_, ?_⟩ <;> decide
theorem witness_FbWritten_timestamp : ∀ c ∈ [(0x12000000 : Word), 0x13000000],
    (after (step (about (.wr32 0 c) { fbStore 19 [0] start with xmit := 1 }))).map (fbByte · 19) = some 1
      ∧ fbByte { fbStore 19 [0] start with xmit := 1 } 19 = 0 := by
  simp only [List.mem_cons, List.not_mem_nil, or_false, forall_eq_or_imp, forall_eq]
  refine ⟨?_, ?_⟩ <;> decide
theorem witness_FbWritten_resum :
    (after (step (about (.wr32 0 0x14000000) (holding [0x08, 0, 0, 0])))).map (fun t => (fbByte t 2, fbByte t 3)) =
      some (0xF7, 0xFF) ∧ fbByte (holding [0x08, 0, 0, 0]) 2 = 0 ∧ fbByte (holding [0x08, 0, 0, 0]) 3 = 0 := by decide
theorem witness_CapIsHardwired : (about (.wr32 (Reg.offset .cap) 9) start).host =
      .access (.wr32 (Reg.offset .cap) 9) :: []
    ∧ (after (step (about (.wr32 (Reg.offset .cap) 9) start))).isSome = true := by decide
theorem witness_StreamCommandsFrame : (∃ t, exec (.ckAdd8 0x61) start = .next t) ∧ ∃ t, exec .ckFinal start = .next t :=
  ⟨⟨_, rfl⟩, ⟨_, rfl⟩⟩
theorem witness_FrameReadersFrame : (∃ t, exec .ckBuf fresh = .next t) ∧ (∃ t, exec .validate fresh = .next t)
    ∧ (∃ t, exec .emit { fresh with sink := [.answers .ok] } = .next t) ∧ frameLen fresh ≤ frameCap fresh :=
  ⟨⟨_, rfl⟩, ⟨_, rfl⟩, ⟨_, rfl⟩, by decide⟩
theorem witness_FrameWritersFrame : (Instr.resum, 2, 4) ∈ [(Instr.buildEchoReq, 0, 8), (.buildEchoRep, 0, 8),
      (.buildTsReq, 0, 20), (.buildTsRep, 0, 20), (.resum, 2, 4)] ∧ (∃ t, exec .resum fresh = .next t)
    ∧ ¬ (2 ≤ 1 ∧ 1 < 4) ∧ ¬ (2 ≤ 4 ∧ 4 < 4) := ⟨by decide, ⟨_, rfl⟩, by decide, by decide⟩
theorem witness_AssemblerRejectsOversizedOperands : (Instr.emit, (0x20000000 : Word)) ∈
      ([(.emit, 0x20000000)] : List (Instr × Word)) ∧ 0xFFFFFFFF < 2 ^ 32 ∧ 2 ^ 32 ≤ 2 ^ 32 := by decide

end Sys2Proof.Tests
end

section
/-! The family 10_state: CAP and the parameter registers under commands and steps, a WR32 to a register as a step, and the layout of STATUS (10_state.md R25, R37 to R44, 20_memory.md R54). -/

namespace Sys2Proof.Machine

section Frame

variable {s t : State}

/-! ### What no command and no step writes -/

theorem buildFrame_sameParameters {type : Byte} {n : Nat} {body : List Byte} (h : buildFrame type n body s = .next t) :
    SameParameters s t := by
  rcases buildFrame_cases h with ⟨-, rfl⟩ | ⟨-, rfl⟩ <;> simp [SameParameters]

/-- The parameter registers and CAP are inputs of the commands, never results (10_state.md R37 to R42, R44). -/
theorem exec_sameParameters {i : Instr} (h : exec i s = .next t) : SameParameters s t := by
  cases i with
  | nop | ckClear | ckAdd16 w | ckAdd8 b | ckFinal | clrErr =>
    obtain rfl := Host.Outcome.next.inj h
    simp [SameParameters]
  | ckBuf => rcases execCkBuf_cases h with ⟨-, rfl⟩ | ⟨-, rfl⟩ <;> simp [SameParameters]
  | validate => rcases execValidate_cases h with ⟨-, rfl⟩ | ⟨-, -, rfl⟩ | ⟨-, -, rfl⟩ <;> simp [SameParameters]
  | buildEchoReq | buildEchoRep => exact buildFrame_sameParameters h
  | buildTsReq | buildTsRep => exact buildFrame_sameParameters (n := 20) h
  | resum => rcases execResum_cases h with ⟨-, rfl⟩ | ⟨-, -, rfl⟩ | ⟨-, -, rfl⟩ <;> simp [SameParameters]
  | emit =>
    rcases execEmit_cases h with ⟨-, rfl⟩ | ⟨-, -, rfl⟩ | ⟨-, -, -, rfl⟩ | ⟨-, -, -, rfl⟩ <;> simp [SameParameters]

theorem exec_cap {i : Instr} (h : exec i s = .next t) : t.cap = s.cap := by
  obtain ⟨-, -, -, -, -, -, hcap⟩ := exec_sameParameters h
  exact hcap

theorem writeReg_cap {r : Reg} {v : Word} (hr : r ≠ .cmd) (h : writeReg r v s = .next t) : t.cap = s.cap := by
  cases r with
  | cmd => exact absurd rfl hr
  | _ => obtain rfl := Host.Outcome.next.inj h; rfl

@[simp] theorem writeFb_cap (k : Nat) (v : Byte) (s : State) : (writeFb k v s).cap = s.cap := by
  unfold writeFb
  split <;> simp

/-- CAP is hardwired (10_state.md R44). -/
theorem step_cap (h : step s = .next t) : t.cap = s.cap := by
  rcases step_cases h with ⟨-, rfl⟩ | ⟨rest, hreset | hcmd | hreg | hfb | hread | hbadRead | hbad⟩
  · rfl
  · obtain ⟨-, rfl⟩ := hreset
    simp
  · obtain ⟨_, _, -, -, hx⟩ := hcmd
    simpa using exec_cap hx
  · obtain ⟨_, _, hr, -, hw⟩ := hreg
    simpa using writeReg_cap hr hw
  · obtain ⟨_, _, -, -, rfl⟩ := hfb
    simp
  · obtain ⟨_, _, -, -, -, rfl⟩ := hread
    simp
  · obtain ⟨_, _, -, -, -, rfl⟩ := hbadRead
    simp
  · obtain ⟨_, _, -, -, -, rfl⟩ := hbad
    simp

/-! ### A WR32 to a register -/

theorem step_wr32 {r : Reg} {v : Word} {rest : List BusEvent}
    (h : s.host = .access (.wr32 (Reg.offset r) v) :: rest) : step s = writeReg r v (setHost rest s) := by
  unfold step performNext
  simp only [h, performEvent, performAccess, hostWrite32, regAt_offset]

/-- The registers that the host can read only (10_state.md R23). -/
def Reg.isReadOnly : Reg → Bool
  | .status | .acc | .csum | .pend | .cap => true
  | .cmd | .ident | .seqNum | .orig | .recv | .xmit | .plen | .len => false

theorem writeReg_readOnly {r : Reg} (hr : r.isReadOnly = true) (v : Word) (s : State) :
    writeReg r v s = .next (recordError .badAccess s) := by
  cases r with
  | status | acc | csum | pend | cap => rfl
  | cmd | ident | seqNum | orig | recv | xmit | plen | len => exact nomatch hr

/-- A write to a read-only register only records BAD_ACCESS (20_memory.md R54). -/
theorem step_wr32_readOnly {r : Reg} {v : Word} {rest : List BusEvent} (hr : r.isReadOnly = true)
    (h : s.host = .access (.wr32 (Reg.offset r) v) :: rest) :
    step s = .next (recordError .badAccess (setHost rest s)) :=
  (step_wr32 h).trans (writeReg_readOnly hr v _)

end Frame

/-! ### The value of CAP -/

/-- FRAME_CAP fits the 16-bit field, so the read loses nothing (10_state.md R44, 00_scope.md R7). -/
theorem readReg_cap_toNat (s : State) : (readReg .cap s).toNat = frameCap s := by
  have := frameCap_le s
  simp only [readReg, BitVec.toNat_ofNat]
  omega

/-! ### The layout of STATUS -/

/-- Bits 5:0 (10_state.md R25). -/
theorem statusWord_flags (s : State) :
    (statusWord s).getLsbD 0 = s.err ∧ (statusWord s).getLsbD 1 = s.odd
      ∧ (statusWord s).getLsbD 2 = s.frameValid ∧ (statusWord s).getLsbD 3 = s.vdone
      ∧ (statusWord s).getLsbD 4 = s.matched ∧ (statusWord s).getLsbD 5 = s.short := by
  simp only [statusWord, BitVec.getLsbD_append]
  simp

/-- The fields above the flags: each is what is left of the concatenation when the parts below it are dropped
(10_state.md R25). -/
theorem statusWord_fields (s : State) :
    (statusWord s).extractLsb' 6 2 = 0 ∧ (statusWord s).extractLsb' 8 4 = errBits s.errCode
      ∧ (statusWord s).extractLsb' 12 20 = 0 := by
  simp only [statusWord, BitVec.extractLsb'_append_eq_of_le, Nat.reduceLeDiff, Nat.reduceSub]
  exact ⟨BitVec.extractLsb'_append_eq_right, BitVec.extractLsb'_append_eq_right, BitVec.extractLsb'_eq_self⟩

end Sys2Proof.Machine
end

section
/-! The obligations of the family 10_state. -/

open Sys2Proof Sys2Proof.Machine

/-- Settles O56: the steps by `step_cap`, the value by the bounds of FRAME_CAP, the write because CAP is read-only. -/
theorem capIsHardwired : Obligations.CapIsHardwired := by
  refine ⟨fun _ _ => step_cap, fun s => ⟨twenty_le_frameCap s, frameCap_le s, readReg_cap_toNat s⟩, ?_⟩
  intro s v rest h
  exact step_wr32_readOnly rfl h

/-- Settles O10: the layout by the flags and the fields of the concatenation, the write because STATUS is read-only. -/
theorem statusLayout : Obligations.StatusLayout := by
  refine ⟨fun s => ?layout, ?codes, ?reset, ?write⟩
  case layout =>
    obtain ⟨herr, hodd, hvalid, hvdone, hmatch, hshort⟩ := statusWord_flags s
    exact ⟨herr, hodd, hvalid, hvdone, hmatch, hshort, statusWord_fields s⟩
  case codes => decide
  case reset => rfl
  case write =>
    intro s v rest h
    exact step_wr32_readOnly rfl h

end

section
/-! The family 20_memory: which offsets are mapped, one host access as a step, and a byte write to FB (20_memory.md R51 to R55). -/

namespace Sys2Proof.Machine

/-! ### Which offsets are mapped -/

/-- The mapped offsets are 0, 4, ..., 0x30 (20_memory.md R51). -/
theorem exists_eq_offset_iff (off : Word) :
    (∃ r : Reg, off = Reg.offset r) ↔ off.toNat % 4 = 0 ∧ off.toNat ≤ 0x30 := by
  constructor
  · rintro ⟨r, rfl⟩
    cases r <;> decide
  · rintro ⟨haligned, hle⟩
    have hmapped : ∀ i : Fin 13, (regAt (BitVec.ofNat 32 (4 * i))).isSome = true := by decide
    have hoff : off = BitVec.ofNat 32 (4 * (off.toNat / 4)) := by
      rw [Nat.mul_div_cancel' (Nat.dvd_of_mod_eq_zero haligned), BitVec.ofNat_toNat, BitVec.setWidth_eq]
    obtain ⟨r, hr⟩ := Option.isSome_iff_exists.1 (hmapped ⟨off.toNat / 4, by omega⟩)
    exact ⟨r, hoff.trans (regAt_eq_some hr)⟩

theorem regAt_eq_none {off : Word} (h : ¬ (off.toNat % 4 = 0 ∧ off.toNat ≤ 0x30)) : regAt off = none :=
  Option.eq_none_iff_forall_ne_some.2 fun r hr => h ((exists_eq_offset_iff off).1 ⟨r, regAt_eq_some hr⟩)

theorem fbIndex_eq_none_iff {off : Word} {s : State} :
    fbIndex off s = none ↔ off.toNat < 0x10000 ∨ 0x10000 + frameCap s ≤ off.toNat := by
  simp only [fbIndex, ite_eq_right_iff, reduceCtorEq, imp_false]
  omega

/-- Every offset of the window below FRAME_CAP is the offset of its index (20_memory.md R52). -/
theorem fbOffset_sub {off : Word} (h : 0x10000 ≤ off.toNat) : fbOffset (off.toNat - 0x10000) = off := by
  rw [fbOffset, Nat.add_sub_cancel' h, BitVec.ofNat_toNat, BitVec.setWidth_eq]

/-! ### What a read and a byte write depend on and touch -/

@[simp] theorem readReg_setHost (r : Reg) (l : List BusEvent) (s : State) : readReg r (setHost l s) = readReg r s := rfl

/-- A byte write touches the byte and FRAME_VALID alone (20_memory.md R55). -/
theorem writeFb_eq (k : Nat) (v : Byte) (s : State) :
    writeFb k v s = setFrameValid (if k < frameLen s then false else s.frameValid) (fbStore k [v] s) := by
  unfold writeFb
  split <;> rfl

theorem fbByte_writeFb (k j : Nat) (v : Byte) (s : State) :
    fbByte (writeFb k v s) j = if j = k then v else fbByte s j := by
  rw [writeFb_eq, fbByte_setFrameValid, fbByte_fbStore]
  by_cases hj : j = k
  · simp [hj]
  · rw [if_neg (by simp; omega), if_neg hj]

/-! ### One access as a step -/

section Step

variable {s t : State} {off : Word} {k : Nat} {rest : List BusEvent}

theorem step_access {a : HostAccess} (h : s.host = .access a :: rest) : step s = performAccess a (setHost rest s) := by
  unfold step performNext
  simp only [h, performEvent]

/-- A legal read of a register (20_memory.md R53). -/
theorem step_rd32 {r : Reg} (h : s.host = .access (.rd32 (Reg.offset r)) :: rest) :
    step s = .next (reply (.data32 (readReg r s)) (setHost rest s)) := by
  simp only [step_access h, performAccess, hostRead32, regAt_offset, readReg_setHost]

/-- A legal read of a byte of FB (20_memory.md R52, R53). -/
theorem step_rd8 (hk : k < frameCap s) (h : s.host = .access (.rd8 (fbOffset k)) :: rest) :
    step s = .next (reply (.data8 (fbByte s k)) (setHost rest s)) := by
  have hindex : fbIndex (fbOffset k) (setHost rest s) = some k := fbIndex_fbOffset hk
  simp only [step_access h, performAccess, hostRead8, hindex, fbByte_setHost]

/-- A legal write of a byte of FB (20_memory.md R52, R55). -/
theorem step_wr8 {v : Byte} (hk : k < frameCap s) (h : s.host = .access (.wr8 (fbOffset k) v) :: rest) :
    step s = .next (writeFb k v (setHost rest s)) := by
  have hindex : fbIndex (fbOffset k) (setHost rest s) = some k := fbIndex_fbOffset hk
  simp only [step_access h, performAccess, hostWrite8, hindex]

/-- A 32-bit access where no register stands is BAD_ACCESS (20_memory.md R51, R52). -/
theorem step_word_unmapped (hoff : ¬ (off.toNat % 4 = 0 ∧ off.toNat ≤ 0x30)) :
    (∀ v, s.host = .access (.wr32 off v) :: rest → step s = .next (recordError .badAccess (setHost rest s)))
      ∧ (s.host = .access (.rd32 off) :: rest →
        step s = .next (reply (.data32 0) (recordError .badAccess (setHost rest s)))) := by
  have hnone := regAt_eq_none hoff
  constructor
  · intro v h
    simp only [step_access h, performAccess, hostWrite32, hnone, raiseError]
  · intro h
    simp only [step_access h, performAccess, hostRead32, hnone]

/-- A byte access outside FB is BAD_ACCESS (20_memory.md R51, R52). -/
theorem step_byte_unmapped (hoff : off.toNat < 0x10000 ∨ 0x10000 + frameCap s ≤ off.toNat) :
    (∀ v, s.host = .access (.wr8 off v) :: rest → step s = .next (recordError .badAccess (setHost rest s)))
      ∧ (s.host = .access (.rd8 off) :: rest →
        step s = .next (reply (.data8 0) (recordError .badAccess (setHost rest s)))) := by
  have hnone : fbIndex off (setHost rest s) = none := fbIndex_eq_none_iff.2 hoff
  constructor
  · intro v h
    simp only [step_access h, performAccess, hostWrite8, hnone]
  · intro h
    simp only [step_access h, performAccess, hostRead8, hnone]

/-! ### Two reads in a row -/

theorem core_run_succ_of_step (n : Nat) (h : step s = .next t) : core.run (n + 1) s = core.run n t := by
  have hcore : core.step s = .next t := h
  simp only [Host.Core.run, hcore]

/-- Two steps that each give the host the same reply leave it twice. -/
theorem core_run_two_of_reply {q : Reply} {rest₁ : List BusEvent} (h₁ : step s = .next (reply q (setHost rest₁ s)))
    (h₂ : step (reply q (setHost rest₁ s)) = .next (reply q (setHost rest (reply q (setHost rest₁ s))))) :
    core.run 2 s = .next { s with host := rest, replies := s.replies ++ [q, q] } := by
  rw [core_run_succ_of_step 1 h₁, core_run_succ_of_step 0 h₂]
  simp [Host.Core.run, reply, setHost]

end Step

end Sys2Proof.Machine
end

section
/-! The obligations of the family 20_memory. -/

open Sys2Proof Sys2Proof.Machine

/-- Settles O12: the mapped offsets by `exists_eq_offset_iff`, the others because no register and no byte of FB
stands there. -/
theorem registerSpaceAccessLegality : Obligations.RegisterSpaceAccessLegality := by
  intro s off rest hlow
  exact ⟨(exists_eq_offset_iff off).symm, step_word_unmapped, step_byte_unmapped (.inl hlow)⟩

/-- Settles O13: no register stands in the window, and its byte offsets below FRAME_CAP are those of FB. -/
theorem fbWindowAccessLegality : Obligations.FbWindowAccessLegality := by
  intro s off rest hwindow
  obtain ⟨hwrite32, hread32⟩ := step_word_unmapped (s := s) (off := off) (rest := rest) (by omega)
  refine ⟨hwrite32, hread32, fun hinside => ?_, fun hbeyond => step_byte_unmapped (.inr hbeyond)⟩
  have hk : off.toNat - 0x10000 < frameCap s := by omega
  have hoff := fbOffset_sub hwindow
  refine ⟨fun h => step_rd8 hk (hoff.symm ▸ h), fun v h => ⟨_, step_wr8 hk (hoff.symm ▸ h), ?_⟩⟩
  rw [fbByte_writeFb, if_pos rfl]

/-- Settles O14: the step is `writeFb`, which touches one byte and FRAME_VALID alone. -/
theorem fbWriteStalesFrame : Obligations.FbWriteStalesFrame := by
  intro s k v rest hk h
  refine ⟨_, step_wr8 hk h, ?_, fun j hj => ?_, ?_⟩
  · rw [fbByte_writeFb, if_pos rfl]
  · rw [fbByte_writeFb, if_neg hj, fbByte_setHost]
  · rw [writeFb_eq]
    refine ⟨rfl, ?_⟩
    simp [SameParameters, SameStream, SameErrors, SameVerdict]

/-- Settles O8: a legal read is one reply, and the second read returns the same value because no register and no
byte of FB depends on the replies or on the events to come. -/
theorem legalReadsReturnTheValueAndChangeNothing : Obligations.LegalReadsReturnTheValueAndChangeNothing := by
  intro s rest
  refine ⟨fun r h => step_rd32 h, rfl, fun k hk h => step_rd8 hk h, fun r h => ?_, fun k hk h => ?_⟩
  · exact core_run_two_of_reply (step_rd32 h) (step_rd32 rfl)
  · exact core_run_two_of_reply (step_rd8 hk h) (step_rd8 hk rfl)

/-- Settles O11: `step_wr32` and the registers one by one; a 16-bit register stores the low half. -/
theorem registerWrites : Obligations.RegisterWrites := by
  intro s v rest r h
  rw [step_wr32 h]
  cases r with
  | ident | seqNum | plen | len => rw [← BitVec.setWidth_eq_extractLsb' (by decide)]; rfl
  | cmd | orig | recv | xmit | status | acc | csum | pend | cap => rfl

end

section
/-! The family 30_encoding: the decoder as the inverse of the encoder, the words it rejects, and the rows of the match and mask table (30_encoding.md R70 to R75). -/

namespace Sys2Proof

/-! ### The formats -/

section Formats

variable {i j : Instr} {imm : Half}

theorem decodeF0_eq_instr_iff : decodeF0 i imm = .instr j ↔ imm = 0 ∧ i = j := by
  unfold decodeF0
  split <;> simp_all

theorem decodeF0_illegal_iff : (∃ r, decodeF0 i imm = .illegal r) ↔ imm ≠ 0 := by
  unfold decodeF0
  split <;> simp_all

theorem decodeFI8_eq_instr_iff {mk : Byte → Instr} :
    decodeFI8 mk imm = .instr j ↔ imm.extractLsb' 8 8 = 0 ∧ mk (imm.extractLsb' 0 8) = j := by
  unfold decodeFI8
  split <;> simp_all

theorem decodeFI8_illegal_iff {mk : Byte → Instr} :
    (∃ r, decodeFI8 mk imm = .illegal r) ↔ imm.extractLsb' 8 8 ≠ 0 := by
  unfold decodeFI8
  split <;> simp_all

theorem decodeFI16_eq_instr_iff {mk : Half → Instr} : decodeFI16 mk imm = .instr j ↔ mk imm = j := by
  simp [decodeFI16]

theorem immediate_of_isF0 (h : i.isF0 = true) : i.immediate = 0 := by
  cases i with
  | ckAdd16 | ckAdd8 => exact nomatch h
  | _ => rfl

/-- A 16-bit field with a zero high byte is its low byte, zero-extended (30_encoding.md R71, R72). -/
theorem high_eq_zero_iff : imm.extractLsb' 8 8 = 0 ↔ imm = (imm.extractLsb' 0 8).setWidth 16 := by
  have hhigh : (imm.extractLsb' 8 8).toNat = imm.toNat / 2 ^ 8 % 2 ^ 8 := by
    rw [BitVec.extractLsb'_toNat, Nat.shiftRight_eq_div_pow]
  have hlow : ((imm.extractLsb' 0 8).setWidth 16).toNat = imm.toNat % 2 ^ 8 % 2 ^ 16 := by
    rw [BitVec.toNat_setWidth, BitVec.extractLsb'_toNat, Nat.shiftRight_zero]
  rw [← BitVec.toNat_inj, ← BitVec.toNat_inj, hhigh, hlow]
  bv_omega

theorem extractLsb'_setWidth_byte (b : Byte) : (b.setWidth 16).extractLsb' 0 8 = b := by
  simp [← BitVec.setWidth_eq_extractLsb']

end Formats

/-! ### The opcode map -/

/-- The OP values that no row of the opcode map assigns (30_encoding.md R75 (a)). -/
def UnassignedOp (op : Byte) : Prop :=
  (0x07 ≤ op.toNat ∧ op.toNat ≤ 0x0F) ∨ (0x15 ≤ op.toNat ∧ op.toNat ≤ 0x1F)
    ∨ (0x21 ≤ op.toNat ∧ op.toNat ≤ 0x3E) ∨ 0x40 ≤ op.toNat

theorem not_unassignedOp_opcode (i : Instr) : ¬ UnassignedOp i.opcode := by
  cases i <;> simp [UnassignedOp, Instr.opcode]

theorem opcode_ne_of_isF0 {i : Instr} (h : i.isF0 = true) : i.opcode ≠ 0x02 ∧ i.opcode ≠ 0x03 := by
  cases i with
  | ckAdd16 | ckAdd8 => exact nomatch h
  | _ => decide

/-- What the decoder does with an operation code: the format of the command that has it, or ILLEGAL
(30_encoding.md R73). -/
theorem decodeOp_cases (op : Byte) (imm : Half) :
    (∃ i : Instr, i.isF0 = true ∧ op = i.opcode ∧ decodeOp op imm = decodeF0 i imm)
      ∨ (op = 0x02 ∧ decodeOp op imm = decodeFI16 .ckAdd16 imm)
      ∨ (op = 0x03 ∧ decodeOp op imm = decodeFI8 .ckAdd8 imm)
      ∨ (UnassignedOp op ∧ decodeOp op imm = .illegal .unassignedOp) := by
  unfold decodeOp
  split
  case h_3 h => exact .inr (.inl ⟨BitVec.eq_of_toNat_eq h, rfl⟩)
  case h_4 h => exact .inr (.inr (.inl ⟨BitVec.eq_of_toNat_eq h, rfl⟩))
  case h_15 =>
    refine .inr (.inr (.inr ⟨?_, rfl⟩))
    simp only [imp_false] at *
    unfold UnassignedOp
    omega
  all_goals exact .inl ⟨_, rfl, BitVec.eq_of_toNat_eq ‹_›, rfl⟩

/-- An operation code and an immediate field decode to the one command that has them (30_encoding.md R71, R73). -/
theorem decodeOp_eq_instr_iff {op : Byte} {imm : Half} {i : Instr} :
    decodeOp op imm = .instr i ↔ op = i.opcode ∧ imm = i.immediate := by
  constructor
  · intro h
    rcases decodeOp_cases op imm with ⟨j, hj, rfl, hx⟩ | ⟨rfl, hx⟩ | ⟨rfl, hx⟩ | ⟨-, hx⟩ <;> rw [hx] at h
    · obtain ⟨rfl, rfl⟩ := decodeF0_eq_instr_iff.1 h
      exact ⟨rfl, (immediate_of_isF0 hj).symm⟩
    · obtain rfl := decodeFI16_eq_instr_iff.1 h
      exact ⟨rfl, rfl⟩
    · obtain ⟨hhigh, rfl⟩ := decodeFI8_eq_instr_iff.1 h
      exact ⟨rfl, high_eq_zero_iff.1 hhigh⟩
    · exact nomatch h
  · rintro ⟨rfl, rfl⟩
    cases i with
    | ckAdd8 b =>
      have hlow := extractLsb'_setWidth_byte b
      exact decodeFI8_eq_instr_iff.2 ⟨high_eq_zero_iff.2 (by rw [Instr.immediate, hlow]), congrArg _ hlow⟩
    | _ => rfl

/-- The rejections of an operation code and an immediate field (30_encoding.md R75 (a), (c), (d)). -/
theorem decodeOp_illegal_iff {op : Byte} {imm : Half} :
    (∃ r, decodeOp op imm = .illegal r) ↔
      UnassignedOp op ∨ (op ≠ 0x02 ∧ op ≠ 0x03 ∧ imm ≠ 0) ∨ (op = 0x03 ∧ imm.extractLsb' 8 8 ≠ 0) := by
  rcases decodeOp_cases op imm with ⟨i, hi, rfl, hx⟩ | ⟨rfl, hx⟩ | ⟨rfl, hx⟩ | ⟨hun, hx⟩ <;> rw [hx]
  · obtain ⟨h2, h3⟩ := opcode_ne_of_isF0 hi
    simp only [decodeF0_illegal_iff, not_unassignedOp_opcode, h2, h3, ne_eq, not_false_eq_true, true_and, false_and,
      false_or, or_false]
  · have hassigned := not_unassignedOp_opcode (.ckAdd16 imm)
    simp_all [decodeFI16, Instr.opcode]
  · have hassigned := not_unassignedOp_opcode (.ckAdd8 0)
    rw [decodeFI8_illegal_iff]
    simp_all [Instr.opcode]
  · simp [hun]

/-! ### The decoder -/

theorem word_eq_iff {c d : Word} :
    c = d ↔ opField c = opField d ∧ rsvField c = rsvField d ∧ immField c = immField d := by
  constructor
  · rintro rfl
    exact ⟨rfl, rfl, rfl⟩
  · rintro ⟨hop, hrsv, himm⟩
    rw [word_eq_fields c, word_eq_fields d, hop, hrsv, himm]

theorem eq_encode_iff {c : Word} {i : Instr} :
    c = encode i ↔ opField c = i.opcode ∧ rsvField c = 0 ∧ immField c = i.immediate := by
  rw [word_eq_iff, opField_encode, rsvField_encode, immField_encode]

/-- The decoder is the inverse of the encoder (30_encoding.md R70, R71, R74). -/
theorem decode_eq_instr_iff {c : Word} {i : Instr} : decode c = .instr i ↔ c = encode i := by
  rw [eq_encode_iff]
  unfold decode
  by_cases hrsv : rsvField c = 0
  · rw [if_pos hrsv, decodeOp_eq_instr_iff]
    simp only [hrsv, true_and]
  · rw [if_neg hrsv]
    exact iff_of_false nofun fun ⟨_, h, _⟩ => hrsv h

/-- Exactly the words of 30_encoding.md R75 (a) to (d) are ILLEGAL. -/
theorem decode_illegal_iff {c : Word} :
    (∃ r, decode c = .illegal r) ↔ UnassignedOp (opField c) ∨ rsvField c ≠ 0
      ∨ (opField c ≠ 0x02 ∧ opField c ≠ 0x03 ∧ immField c ≠ 0)
      ∨ (opField c = 0x03 ∧ (immField c).extractLsb' 8 8 ≠ 0) := by
  unfold decode
  by_cases hrsv : rsvField c = 0
  · rw [if_pos hrsv, decodeOp_illegal_iff]
    simp only [hrsv, ne_eq, not_true_eq_false, false_or]
  · rw [if_neg hrsv]
    exact iff_of_true ⟨_, rfl⟩ (.inr (.inl hrsv))

/-! ### The match and mask table -/

section Table

variable {r : TableRow} {c : Word}

theorem opField_and (c d : Word) : opField (c &&& d) = opField c &&& opField d := BitVec.extractLsb'_and
theorem rsvField_and (c d : Word) : rsvField (c &&& d) = rsvField c &&& rsvField d := BitVec.extractLsb'_and
theorem immField_and (c d : Word) : immField (c &&& d) = immField c &&& immField d := BitVec.extractLsb'_and

/-- The low byte of the word is that of its immediate field (30_encoding.md R70). -/
theorem extractLsb'_low_eq (c : Word) : c.extractLsb' 0 8 = (immField c).extractLsb' 0 8 := by
  simp [immField, ← BitVec.setWidth_eq_extractLsb']

theorem and_highMask_eq_zero_iff {imm : Half} :
    imm &&& 0xFF00 = 0 ↔ imm = (imm.extractLsb' 0 8).setWidth 16 := by
  constructor
  · intro h
    rw [← high_eq_zero_iff]
    have hhigh := congrArg (BitVec.extractLsb' 8 8) h
    rw [BitVec.extractLsb'_and] at hhigh
    exact (BitVec.and_allOnes).symm.trans hhigh
  · intro h
    have hlow : ∀ b : Byte, b.setWidth 16 &&& 0xFF00 = 0 := by decide
    rw [h, hlow]

/-- Every row fixes OP to its own value and RSV to 0, and its mask says which bits of IMM must be 0
(30_encoding.md R73). -/
theorem matches_iff_fields (hr : r ∈ matchMaskTable) :
    r.matches c = true ↔ opField c = opField r.pattern ∧ rsvField c = 0 ∧ immField c &&& immField r.mask = 0 := by
  have hfields : ∀ r ∈ matchMaskTable, opField r.mask = BitVec.allOnes 8 ∧ rsvField r.mask = BitVec.allOnes 8
      ∧ rsvField r.pattern = 0 ∧ immField r.pattern = 0 := by decide
  obtain ⟨hop, hrsv, hrsv0, himm0⟩ := hfields r hr
  rw [TableRow.matches, beq_iff_eq, word_eq_iff, opField_and, rsvField_and, immField_and, hop, hrsv, hrsv0, himm0,
    BitVec.and_allOnes, BitVec.and_allOnes]

/-- The command of a row has the row's OP, and its immediate field is the word's when the mask admits the word's
(30_encoding.md R71 to R74). -/
theorem build_fields (hr : r ∈ matchMaskTable) (c : Word) :
    (r.build c).opcode = opField r.pattern
      ∧ (immField c = (r.build c).immediate ↔ immField c &&& immField r.mask = 0) := by
  have hfull : immField c &&& immField 0xFFFFFFFF = 0 ↔ immField c = 0 := by
    rw [show immField 0xFFFFFFFF = BitVec.allOnes 16 by decide, BitVec.and_allOnes]
  simp only [matchMaskTable, List.mem_cons, List.not_mem_nil, or_false] at hr
  rcases hr with rfl | rfl | rfl | rfl | rfl | rfl | rfl | rfl | rfl | rfl | rfl | rfl | rfl | rfl
  case inr.inr.inl => exact ⟨rfl, iff_of_true rfl BitVec.and_zero⟩
  case inr.inr.inr.inl =>
    refine ⟨rfl, Iff.trans ?_ and_highMask_eq_zero_iff.symm⟩
    rw [Instr.immediate, extractLsb'_low_eq]
  all_goals exact ⟨rfl, hfull.symm⟩

/-- A row matches exactly the words of its command, the operand read from the word (30_encoding.md R73, R74). -/
theorem matches_iff_eq_encode (hr : r ∈ matchMaskTable) : r.matches c = true ↔ c = encode (r.build c) := by
  obtain ⟨hop, himm⟩ := build_fields hr c
  rw [matches_iff_fields hr, eq_encode_iff, hop, himm]

theorem exists_row_build_encode (i : Instr) : ∃ r ∈ matchMaskTable, r.build (encode i) = i := by
  cases i with
  | ckAdd16 w =>
    have hoperand : (encode (.ckAdd16 w)).extractLsb' 0 16 = w := immField_encode _
    simp [matchMaskTable, hoperand]
  | ckAdd8 b =>
    have hoperand : (encode (.ckAdd8 b)).extractLsb' 0 8 = b := by
      rw [extractLsb'_low_eq, immField_encode, Instr.immediate, extractLsb'_setWidth_byte]
    simp [matchMaskTable, hoperand]
  | _ => simp [matchMaskTable]

/-- The first matching row is the command the decoder reads (30_encoding.md R74). -/
theorem decode_of_decodeByTable {i : Instr} (h : decodeByTable c = some i) : decode c = .instr i := by
  obtain ⟨r, hfind, rfl⟩ := Option.map_eq_some_iff.1 h
  have hmatch : r.matches c = true := List.find?_some (p := fun q : TableRow => q.matches c) hfind
  exact decode_eq_instr_iff.2 ((matches_iff_eq_encode (List.mem_of_find?_eq_some hfind)).1 hmatch)

/-- A word that decodes matches some row (30_encoding.md R74). -/
theorem isSome_decodeByTable {i : Instr} (h : decode c = .instr i) : (decodeByTable c).isSome = true := by
  obtain rfl := decode_eq_instr_iff.1 h
  obtain ⟨r, hr, hbuild⟩ := exists_row_build_encode i
  rw [decodeByTable, Option.isSome_map, List.find?_isSome]
  exact ⟨r, hr, (matches_iff_eq_encode hr).2 (by rw [hbuild])⟩

theorem decodeByTable_eq_some_iff {i : Instr} : decodeByTable c = some i ↔ decode c = .instr i := by
  refine ⟨decode_of_decodeByTable, fun h => ?_⟩
  obtain ⟨j, hj⟩ := Option.isSome_iff_exists.1 (isSome_decodeByTable h)
  obtain rfl := Decoded.instr.inj (h.symm.trans (decode_of_decodeByTable hj))
  exact hj

end Table

end Sys2Proof
end

section
/-! The obligations of the family 30_encoding. -/

open Sys2Proof Sys2Proof.Machine

/-- Settles O3: a row matches exactly the words of its command, and every row fixes OP to a value of its own. -/
theorem decodeAgreesWithMatchMask : Obligations.DecodeAgreesWithMatchMask := by
  refine ⟨fun c => ?agree, fun c => ?disjoint⟩
  case agree =>
    cases hd : decode c with
    | instr i => exact decodeByTable_eq_some_iff.2 hd
    | illegal r =>
      exact Option.eq_none_iff_forall_ne_some.2 fun i hi => nomatch hd.symm.trans (decode_of_decodeByTable hi)
  case disjoint =>
    have hdistinct : matchMaskTable.Pairwise fun r q => opField r.pattern ≠ opField q.pattern := by decide
    refine hdistinct.imp_of_mem fun hr hq hne ⟨hrc, hqc⟩ => hne ?_
    obtain ⟨hopr, -⟩ := (matches_iff_fields hr).1 hrc
    obtain ⟨hopq, -⟩ := (matches_iff_fields hq).1 hqc
    exact hopr.symm.trans hopq

/-- Settles O4: the words by `decode_illegal_iff`, and `step_command` is the step that writes CMD. -/
theorem illegalWordsRecordIllegalCmd : Obligations.IllegalWordsRecordIllegalCmd := by
  refine ⟨fun c => decode_illegal_iff, fun s c r rest hhost hdecode => ?_⟩
  rw [step_command hhost]
  simp only [command, hdecode, raiseError, setHost]

end

section
/-! The family 40_checksum: acc_add as a 33-bit sum, folding as the residue modulo 0xFFFF, the stream a list of pushes leaves, and what the checksum commands leave in the state (40_checksum.md R100 to R112). -/

namespace Sys2Proof.Machine

/-! ### acc_add -/

section AccAdd

variable (a : Word) (w : Half)

/-- The 33-bit sum is exact (40_checksum.md R101). -/
theorem toNat_sum33 : (a.setWidth 33 + w.setWidth 33).toNat = a.toNat + w.toNat := by
  have ha := a.isLt
  have hw := w.isLt
  simp only [BitVec.toNat_add, BitVec.toNat_setWidth]
  omega

/-- Bit 32 of the 33-bit sum is the carry (40_checksum.md R101). -/
theorem sum33_carry_iff : (a.setWidth 33 + w.setWidth 33).getLsbD 32 = true ↔ 2 ^ 32 ≤ a.toNat + w.toNat := by
  have ha := a.isLt
  have hw := w.isLt
  rw [← BitVec.testBit_toNat, toNat_sum33, Nat.testBit_eq_decide_div_mod_eq, decide_eq_true_iff]
  omega

theorem toNat_low_sum33 :
    ((a.setWidth 33 + w.setWidth 33).setWidth 32).toNat = (a.toNat + w.toNat) % 2 ^ 32 := by
  rw [BitVec.toNat_setWidth, toNat_sum33]

/-- After a carry the low 32 bits leave room to add it back (40_checksum.md R101). -/
theorem toNat_low_sum33_le (h : (a.setWidth 33 + w.setWidth 33).getLsbD 32 = true) :
    ((a.setWidth 33 + w.setWidth 33).setWidth 32).toNat ≤ 0xFFFE := by
  have ha := a.isLt
  have hw := w.isLt
  rw [sum33_carry_iff] at h
  rw [toNat_low_sum33]
  omega

theorem accAdd_eq_sum33 :
    accAdd a w = if (a.setWidth 33 + w.setWidth 33).getLsbD 32 then (a.setWidth 33 + w.setWidth 33).setWidth 32 + 1
      else (a.setWidth 33 + w.setWidth 33).setWidth 32 := by
  have ha := a.isLt
  have hw := w.isLt
  have hlow := toNat_low_sum33 a w
  apply BitVec.eq_of_toNat_eq
  rw [accAdd_toNat]
  by_cases hc : (a.setWidth 33 + w.setWidth 33).getLsbD 32 = true
  · rw [if_pos hc, BitVec.toNat_add, hlow, show (1 : Word).toNat = 1 from rfl]
    rw [sum33_carry_iff] at hc
    rw [if_neg (by omega)]
    omega
  · rw [if_neg hc, hlow]
    rw [sum33_carry_iff] at hc
    rw [if_pos (by omega)]
    omega

end AccAdd

theorem wordSum_cons (w : Half) (ws : List Half) : wordSum (w :: ws) = w.toNat + wordSum ws := by simp [wordSum]

/-- While the sum fits 32 bits no carry arises, and acc_add is plain addition (40_checksum.md R101). -/
theorem foldl_accAdd_toNat {ws : List Half} {a : Word} (h : a.toNat + wordSum ws < 2 ^ 32) :
    (ws.foldl accAdd a).toNat = a.toNat + wordSum ws := by
  induction ws generalizing a with
  | nil => simp [wordSum]
  | cons w ws ih =>
    rw [wordSum_cons] at *
    have hstep : (accAdd a w).toNat = a.toNat + w.toNat := by rw [accAdd_toNat, if_pos (by omega)]
    rw [List.foldl_cons, ih (by omega), hstep, Nat.add_assoc]

theorem wordSum_le (ws : List Half) : wordSum ws ≤ ws.length * 0xFFFF := by
  induction ws with
  | nil => simp [wordSum]
  | cons w ws ih =>
    have hw := w.isLt
    rw [wordSum_cons, List.length_cons]
    omega

/-- 65537 words cannot reach 2^32, so their total is their plain sum (40_checksum.md R101). -/
theorem total_toNat {ws : List Half} (h : ws.length ≤ 65537) : (total ws).toNat = wordSum ws := by
  have hle := wordSum_le ws
  have hfold := foldl_accAdd_toNat (ws := ws) (a := 0) (by simp; omega)
  exact hfold.trans (Nat.zero_add _)

/-! ### Folding -/

theorem foldLoop_add (m n s : Nat) : foldLoop (m + n) s = foldLoop n (foldLoop m s) := by
  induction m generalizing s with
  | zero => rw [Nat.zero_add, foldLoop]
  | succ m ih =>
    by_cases hs : s > 0xFFFF
    · rw [Nat.add_right_comm, foldLoop, foldLoop, if_pos hs, if_pos hs, ih]
    · have hsmall (k : Nat) : foldLoop k s = s := foldLoop_small k s (by omega)
      rw [hsmall, hsmall, hsmall]

/-- As many passes as the value always reach 16 bits, because every pass makes it smaller (40_checksum.md R104). -/
theorem foldLoop_le {n s : Nat} (h : s ≤ n) : foldLoop n s ≤ 0xFFFF := by
  induction n generalizing s with
  | zero => rw [foldLoop]; omega
  | succ n ih =>
    rw [foldLoop]
    split
    · exact ih (by rw [foldStep_eq]; omega)
    · omega

/-- The folded values stand for the residues modulo 0xFFFF one to one, 0 apart from 0xFFFF (40_checksum.md R102). -/
theorem eq_of_folded {r q : Nat} (hr : r ≤ 0xFFFF) (hq : q ≤ 0xFFFF) (hzero : r = 0 ↔ q = 0)
    (hmod : r % 0xFFFF = q % 0xFFFF) : r = q := by
  omega

theorem fold16_le (a : Word) : (fold16 a).toNat ≤ 0xFFFF := by
  have := (fold16 a).isLt
  omega

/-- More than two passes change nothing (40_checksum.md R102). -/
theorem foldLoop_eq_fold16 {n : Nat} (hn : 2 ≤ n) (a : Word) : foldLoop n a.toNat = (fold16 a).toNat := by
  obtain ⟨m, rfl⟩ := Nat.exists_eq_add_of_le hn
  rw [foldLoop_add, ← fold16_toNat, foldLoop_small _ _ (fold16_le a)]

theorem foldStep_word_le (a : Word) : foldStep a.toNat ≤ 0x1FFFE := by
  have ha := a.isLt
  rw [foldStep_eq]
  omega

/-- fold16 is the one representative of the residue in 1 to 0xFFFF (40_checksum.md R102). -/
theorem eq_fold16_iff {a : Word} (ha : a.toNat ≠ 0) {r : Nat} :
    (1 ≤ r ∧ r ≤ 0xFFFF ∧ r % 0xFFFF = a.toNat % 0xFFFF) ↔ r = (fold16 a).toNat := by
  have hpos : (fold16 a).toNat ≠ 0 := (fold16_eq_zero a).not.2 ha
  have hle := fold16_le a
  have hmod := fold16_mod a
  constructor
  · rintro ⟨h1, h2, h3⟩
    exact eq_of_folded h2 hle (by omega) (h3.trans hmod.symm)
  · rintro rfl
    exact ⟨by omega, hle, hmod⟩

/-- The engine's folded total is the folded unbounded sum: 2^32 is 1 modulo 0xFFFF, so no end-around carry changes
the residue, and the total is 0 only when the sum is (40_checksum.md R104). -/
theorem fold16_total_toNat {ws : List Half} {n : Nat} (h : wordSum ws ≤ n) :
    (fold16 (total ws)).toNat = foldLoop n (wordSum ws) := by
  refine eq_of_folded (fold16_le _) (foldLoop_le h) ?zero ?residue
  case zero => rw [fold16_eq_zero, total_eq_zero, foldLoop_eq_zero]
  case residue =>
    have htotal := total_mod ws
    rw [fold16_mod, foldLoop_mod]
    omega

theorem fold16_total {ws : List Half} {n : Nat} (h : wordSum ws ≤ n) :
    fold16 (total ws) = BitVec.ofNat 16 (foldLoop n (wordSum ws)) := by
  rw [← fold16_total_toNat h, BitVec.ofNat_toNat, BitVec.setWidth_eq]

/-! ### The stream that bytes leave -/

/-- ACC is the total of the complete words (40_checksum.md R112). -/
theorem pushBytes_acc (bs : List Byte) (a : Word) :
    (pushBytes ⟨a, false, 0⟩ bs).acc = (words (bs.take (2 * (bs.length / 2)))).foldl accAdd a := by
  induction bs using words.induct generalizing a with
  | case1 => rfl
  | case2 b => simp [pushBytes, pushByte, words]
  | case3 b c rest ih =>
    have hlen : 2 * ((b :: c :: rest).length / 2) = 2 * (rest.length / 2) + 1 + 1 := by
      simp only [List.length_cons]
      omega
    rw [pushBytes_pair _ rfl, ih, hlen, List.take_succ_cons, List.take_succ_cons, words, List.foldl_cons]

/-- PEND is the last byte of an odd sequence, else 0 (40_checksum.md R112). -/
theorem pushBytes_pend_eq (bs : List Byte) (a : Word) :
    (pushBytes ⟨a, false, 0⟩ bs).pend = if bs.length % 2 = 1 then bs.getD (bs.length - 1) 0 else 0 := by
  induction bs using words.induct generalizing a with
  | case1 => rfl
  | case2 b => rfl
  | case3 b c rest ih =>
    rw [pushBytes_pair _ rfl, ih, List.length_cons, List.length_cons, Nat.add_assoc, Nat.add_mod_right]
    by_cases hodd : rest.length % 2 = 1
    · have hlast : rest.length + (1 + 1) - 1 = (rest.length - 1) + 1 + 1 := by omega
      rw [if_pos hodd, if_pos hodd, hlast, List.getD_cons_succ, List.getD_cons_succ]
    · rw [if_neg hodd, if_neg hodd]

/-- A buffer run leaves the checksum of the bytes (40_checksum.md R110). -/
theorem sumBytes_csum_eq (bs : List Byte) (s : State) : (sumBytes bs s).csum = csum bs := by
  rw [sumBytes_csum, streamChecksum_ofBytes]

/-- A buffer run leaves ODD as the length modulo 2 (40_checksum.md R110). -/
theorem sumBytes_odd_eq (bs : List Byte) (s : State) : (sumBytes bs s).odd = decide (bs.length % 2 = 1) := by
  rw [sumBytes_odd, pushBytes_odd]
  exact Bool.false_xor _

/-- All that a buffer run writes (40_checksum.md R110). -/
theorem sumBytes_eq (bs : List Byte) (s : State) :
    sumBytes bs s = { s with
      acc := (pushBytes emptyStream bs).acc, odd := decide (bs.length % 2 = 1),
      pend := (pushBytes emptyStream bs).pend, csum := csum bs } := by
  rw [← sumBytes_csum_eq bs s, ← sumBytes_odd_eq bs s]
  rfl

theorem csum_nil : csum [] = 0xFFFF := by decide

theorem wordSum_words_eq_zero {bs : List Byte} (h : ∀ b ∈ bs, b = 0) : wordSum (words bs) = 0 := by
  induction bs using words.induct with
  | case1 => rfl
  | case2 b =>
    obtain rfl := h b (by simp)
    rfl
  | case3 b c rest ih =>
    obtain rfl := h b (by simp)
    obtain rfl := h c (by simp)
    exact (Nat.zero_add _).trans (ih fun d hd => h d (by simp [hd]))

/-- Zeros have the checksum 0xFFFF, however many they are (40_checksum.md R105 (b)). -/
theorem csum_of_forall_eq_zero {bs : List Byte} (h : ∀ b ∈ bs, b = 0) : csum bs = 0xFFFF := by
  have htotal : total (words bs) = 0 := BitVec.eq_of_toNat_eq ((total_eq_zero _).2 (wordSum_words_eq_zero h))
  rw [csum, htotal]
  decide

/-! ### Lists of pushes -/

section Pushes

variable {s t : State} {is js : List Instr} {bs : List Byte}

theorem execAll_append (h : execAll is s = .next t) : execAll (is ++ js) s = execAll js t := by
  induction is generalizing s with
  | nil => rw [List.nil_append, Host.Outcome.next.inj h]
  | cons i is ih =>
    cases hi : exec i s with
    | next u =>
      simp only [execAll, hi] at h
      simp only [List.cons_append, execAll, hi, ih h]
    | fault r => simp [execAll, hi] at h
    | refused r => simp [execAll, hi] at h

/-- CK_ADD8 and CK_ADD16 push their bytes and do nothing else (40_checksum.md R107, R108). -/
theorem exec_of_pushedBytes {i : Instr} (h : pushedBytes i = some bs) :
    exec i s = .next (setStream (pushBytes (stream s) bs) s) := by
  cases i with
  | ckAdd16 w | ckAdd8 b =>
    obtain rfl := Option.some.inj h
    rfl
  | _ => exact nomatch h

theorem pushedAll_cons {i : Instr} (h : pushedAll (i :: is) = some bs) :
    ∃ b cs, pushedBytes i = some b ∧ pushedAll is = some cs ∧ bs = b ++ cs := by
  unfold pushedAll at h
  split at h
  · exact ⟨_, _, ‹_›, ‹_›, (Option.some.inj h).symm⟩
  · exact nomatch h

/-- How the pushes cut the bytes does not matter (40_checksum.md R112). -/
theorem execAll_of_pushedAll (h : pushedAll is = some bs) :
    execAll is s = .next (setStream (pushBytes (stream s) bs) s) := by
  induction is generalizing s bs with
  | nil =>
    obtain rfl := Option.some.inj h
    rfl
  | cons i is ih =>
    obtain ⟨b, cs, hi, his, rfl⟩ := pushedAll_cons h
    simp only [execAll, exec_of_pushedBytes hi, ih his, pushBytes_append]
    rfl

/-- A streamed checksum is a buffer run over the pushed bytes (40_checksum.md R112). -/
theorem execAll_stream (h : pushedAll is = some bs) :
    execAll (.ckClear :: is ++ [.ckFinal]) s = .next (sumBytes bs s) :=
  execAll_append (execAll_of_pushedAll (s := setStream emptyStream s) h)

end Pushes

/-! ### The buffer commands -/

section BufferCommands

variable {s : State}

theorem exec_ckBuf_of_le (h : frameLen s ≤ frameCap s) : exec .ckBuf s = .next (sumBytes (frame s) s) :=
  if_neg (by omega)

theorem exec_ckBuf_of_gt (h : frameLen s > frameCap s) : exec .ckBuf s = .next (recordError .frameOverflow s) :=
  if_pos h

theorem exec_validate_of_gt (h : frameLen s > frameCap s) : exec .validate s = .next (recordError .frameOverflow s) :=
  if_pos h

theorem exec_validate_of_short (h : frameLen s ≤ frameCap s) (hs : frameLen s < 4) :
    exec .validate s = .next (setVerdict false true s) :=
  (if_neg (by omega)).trans (if_pos hs)

/-- VALIDATE of a frame with a checksum field (40_checksum.md R111). -/
theorem exec_validate_of_le (h : frameLen s ≤ frameCap s) (h4 : 4 ≤ frameLen s) :
    exec .validate s = .next (setVerdict
      (decide (csum (zeroedView s (frameLen s)) = fbByte s 2 ++ fbByte s 3)) false
      (sumBytes (zeroedView s (frameLen s)) s)) := by
  rw [zeroedView_eq, ← sumBytes_csum_eq _ s]
  exact (if_neg (by omega)).trans (if_neg (by omega))

@[simp] theorem zeroedView_length (s : State) (n : Nat) : (zeroedView s n).length = n := by simp [zeroedView]

theorem zeroedView_of_zero {n : Nat} (h : ∀ k, k < n → fbByte s k = 0) : ∀ b ∈ zeroedView s n, b = 0 := by
  simp only [zeroedView, List.mem_map, List.mem_range]
  rintro b ⟨k, hk, rfl⟩
  rw [h k hk, ite_self]

end BufferCommands

/-! ### Single pushes -/

section Push

variable {t : CkStream} {s : State}

theorem pushByte_of_even (h : t.odd = false) (b : Byte) : pushByte t b = ⟨t.acc, true, b⟩ := by simp [pushByte, h]

theorem pushByte_of_odd (h : t.odd = true) (b : Byte) :
    pushByte t b = ⟨accAdd t.acc (halfOfBytes t.pend b), false, 0⟩ := by
  simp [pushByte, h]

theorem pushBytes_bytes16_of_even (h : t.odd = false) (w : Half) :
    pushBytes t (bytes16 w) = ⟨accAdd t.acc w, false, 0⟩ := by
  rw [bytes16, pushBytes_pair t h, halfOfBytes_bytes16]
  rfl

/-- From an odd stream the pairing moves by one byte, and ODD stays (40_checksum.md R107). -/
theorem pushBytes_bytes16_of_odd (h : t.odd = true) (w : Half) :
    pushBytes t (bytes16 w) = ⟨accAdd t.acc (halfOfBytes t.pend (w.extractLsb' 8 8)), true, w.extractLsb' 0 8⟩ := by
  simp only [pushBytes, bytes16, List.foldl_cons, List.foldl_nil, pushByte_of_odd h]
  exact pushByte_of_even rfl _

theorem exec_ckAdd8 (b : Byte) (s : State) : exec (.ckAdd8 b) s = .next (setStream (pushByte (stream s) b) s) := rfl

theorem exec_ckAdd16 (w : Half) (s : State) :
    exec (.ckAdd16 w) s = .next (setStream (pushBytes (stream s) (bytes16 w)) s) := rfl

/-- CK_FINAL of a stream of whole words (40_checksum.md R109). -/
theorem exec_ckFinal_of_even (h : s.odd = false) :
    exec .ckFinal s = .next { s with csum := 0xFFFF - fold16 s.acc } := by
  have hsum : streamChecksum (stream s) = 0xFFFF - fold16 s.acc := by simp [streamChecksum, stream, h]
  rw [← hsum]
  rfl

theorem setStream_stream (s : State) : setStream (stream s) s = s := rfl

end Push

/-! ### The words of the pushing commands -/

/-- A half-word, zero-extended, is the word with that IMM and the other fields 0 (30_encoding.md R70, R71). -/
theorem setWidth_half_eq (imm : Half) : imm.setWidth 32 = (0 : Byte) ++ (0 : Byte) ++ imm :=
  BitVec.setWidth_eq_append (by decide)

/-- OP with an operand put below it is the command's word (30_encoding.md R73). -/
theorem decode_or_immediate {c : Word} {i : Instr} (h : c = i.opcode ++ (0 : Byte) ++ (0 : Half)) :
    decode (c ||| i.immediate.setWidth 32) = .instr i := by
  rw [h, decode_eq_instr_iff, setWidth_half_eq, BitVec.or_append, BitVec.or_append]
  simp [encode]

end Sys2Proof.Machine
end

section
/-! The obligations of the family 40_checksum. -/

open Sys2Proof Sys2Proof.Machine

/-- Settles O21: bit 32 of the exact 33-bit sum is the carry, and 65537 words never carry. -/
theorem accAddIsEndAroundCarry : Obligations.AccAddIsEndAroundCarry :=
  ⟨accAdd_eq_sum33, toNat_low_sum33_le, fun _ => total_toNat⟩

/-- Settles O22: two passes reach 16 bits, where a residue has one representative. -/
theorem foldSixteenIsResidue : Obligations.FoldSixteenIsResidue := fun a =>
  ⟨fun _ hn => foldLoop_eq_fold16 hn a, fun _ => rfl, foldStep_word_le a, fold16_eq_zero a,
    fun ha _ => eq_fold16_iff ha⟩

/-- Settles O24: `fold16_total`, complemented. -/
theorem checksumIsOnesComplementOfUnboundedSum : Obligations.ChecksumIsOnesComplementOfUnboundedSum :=
  fun _ _ h => ⟨foldLoop_le h, congrArg (0xFFFF - ·) (fold16_total h)⟩

/-- Settles O23: csum is defined so; a 16-bit complement is the difference from all ones. -/
theorem checksumIsComplementOfFoldedTotal : Obligations.ChecksumIsComplementOfFoldedTotal :=
  ⟨fun _ => rfl, fun h => BitVec.allOnes_sub_eq_not h, by decide⟩

/-- Settles O43: the stream run and CK_BUF are the same buffer run over the bytes. -/
theorem streamLaw : Obligations.StreamLaw := by
  intro s is bs h
  refine ⟨_, execAll_stream h, sumBytes_csum_eq bs s, sumBytes_odd_eq bs s, pushBytes_acc bs 0,
    pushBytes_pend_eq bs 0, ?_⟩
  rintro u hle rfl
  exact ⟨_, exec_ckBuf_of_le hle, by simp⟩

/-- Settles O31: `sumBytes_eq` over the frame. -/
theorem ckBufChecksumsFrame : Obligations.CkBufChecksumsFrame := by
  refine ⟨onlyWord_f0 fun _ => rfl, fun s hle => ?fits, fun s hlen => ?empty, fun s => exec_ckBuf_of_gt⟩
  case fits => rw [exec_ckBuf_of_le hle, sumBytes_eq, frame_length]
  case empty =>
    have hframe : frame s = [] := List.eq_nil_of_length_eq_zero (by rw [frame_length, hlen])
    rw [exec_ckBuf_of_le (by omega), hframe, sumBytes_eq, csum_nil]
    rfl

/-- Settles O32: `sumBytes_eq` over the zeroed view; an all-zero frame stores 0, and zeros have the checksum 0xFFFF. -/
theorem validateComparesStoredChecksum : Obligations.ValidateComparesStoredChecksum := by
  refine ⟨onlyWord_f0 fun _ => rfl, fun s => exec_validate_of_gt, fun s => exec_validate_of_short,
    fun s hle h4 => ?compare, fun s hle h4 hzero => ⟨_, exec_validate_of_le hle h4, ?mismatch⟩⟩
  case compare =>
    rw [exec_validate_of_le hle h4, sumBytes_eq, zeroedView_length]
    rfl
  case mismatch =>
    rw [setVerdict_matched, csum_of_forall_eq_zero (zeroedView_of_zero hzero), hzero 2 (by omega), hzero 3 (by omega)]
    decide

/-- Settles O27: CK_CLEAR writes the empty stream. -/
theorem ckClearEmptiesStream : Obligations.CkClearEmptiesStream := by
  refine ⟨onlyWord_f0 fun _ => rfl, fun _ => rfl, fun s hacc hodd hpend => ?_⟩
  have hempty : stream s = emptyStream := by rw [stream, hacc, hodd, hpend, emptyStream]
  have hsame := setStream_stream s
  rw [hempty] at hsame
  exact congrArg Host.Outcome.next hsame

/-- Settles O28: the word by `decode_or_immediate`, and the two bytes pushed on an even and on an odd stream. -/
theorem ckAddSixteenPushesTwoBytes : Obligations.CkAddSixteenPushesTwoBytes := by
  have hword : (0x02000000 : Word) = (0x02 : Byte) ++ (0 : Byte) ++ (0 : Half) := by decide
  refine ⟨fun w => decode_or_immediate (i := .ckAdd16 w) hword,
    fun c _ hrsv => decode_illegal_iff.2 (.inr (.inl hrsv)),
    fun w s => ⟨rfl, fun hodd => ?even, fun hodd => ?odd⟩⟩
  case even =>
    rw [exec_ckAdd16, pushBytes_bytes16_of_even hodd, ← hodd]
    rfl
  case odd =>
    rw [exec_ckAdd16, pushBytes_bytes16_of_odd hodd, ← hodd]
    rfl

/-- Settles O29: the word by `decode_or_immediate`, and the byte pushed on an even and on an odd stream. -/
theorem ckAddEightPushesOneByte : Obligations.CkAddEightPushesOneByte := by
  refine ⟨fun b => ?word, fun c hop hbad => decode_illegal_iff.2 (.inr ?illegal),
    fun b s => ⟨fun hodd => ?even, fun hodd => ?odd⟩⟩
  case word =>
    have himm : (b.setWidth 16).setWidth 32 = b.setWidth 32 := BitVec.setWidth_setWidth (by decide)
    have hword : (0x03000000 : Word) = (0x03 : Byte) ++ (0 : Byte) ++ (0 : Half) := by decide
    rw [← himm]
    exact decode_or_immediate (i := .ckAdd8 b) hword
  case illegal => exact hbad.imp id fun hhigh => .inr ⟨hop, hhigh⟩
  case even =>
    rw [exec_ckAdd8, pushByte_of_even hodd]
    rfl
  case odd =>
    rw [exec_ckAdd8, pushByte_of_odd hodd]
    rfl

/-- Settles O30: finalize writes CSUM alone. -/
theorem ckFinalWritesChecksumOnly : Obligations.CkFinalWritesChecksumOnly := by
  refine ⟨onlyWord_f0 fun _ => rfl, fun _ => rfl, fun s hacc hodd => ?empty, fun s hacc hodd => ?allOnes⟩
  case empty =>
    have hsum : 0xFFFF - fold16 s.acc = 0xFFFF := by
      rw [hacc]
      decide
    rw [exec_ckFinal_of_even hodd, hsum]
  case allOnes =>
    have hsum : 0xFFFF - fold16 s.acc = 0x0000 := by
      rw [hacc]
      decide
    rw [exec_ckFinal_of_even hodd, hsum]

end

section
/-! The family 41_echo: the bytes of FB read back in parts, and the shared build of an Echo message, whose payload is in place (41_echo.md R123 to R126). -/

namespace Sys2Proof.Machine

variable {s : State} {type : Byte} {n : Nat} {body : List Byte}

/-! ### Ranges of FB -/

theorem fbBytes_add (s : State) (k m n : Nat) : fbBytes s k (m + n) = fbBytes s k m ++ fbBytes s (k + m) n := by
  simp only [fbBytes, List.range_add, List.map_append, List.map_map, Function.comp_def, Nat.add_assoc]

/-- MemWrite, read back whole (00_scope.md R9). -/
theorem fbBytes_fbStore_self (k : Nat) (bs : List Byte) (s : State) : fbBytes (fbStore k bs s) k bs.length = bs := by
  refine List.ext_getElem (fbBytes_length _ _ _) fun i _ hi => ?_
  simp [fbBytes, fbByte_fbStore, hi]

/-! ### The shared build -/

theorem buildFrame_of_le (h : n ≤ frameCap s) : buildFrame type n body s =
    .next (sumAndPatch n (setLen n (fbStore 8 body (fbStore 0 (messageHead type s) s)))) :=
  if_neg (by omega)

theorem buildFrame_of_gt (h : n > frameCap s) : buildFrame type n body s = .next (recordError .frameOverflow s) :=
  if_pos h

/-- From index 8 on, the head leaves FB as it was (41_echo.md R123). -/
theorem fbByte_head (type : Byte) (s : State) {k : Nat} (h : 8 ≤ k) :
    fbByte (fbStore 0 (messageHead type s) s) k = fbByte s k := by
  rw [fbByte_fbStore, messageHead_length, if_neg (by omega)]

/-- The head, stored before bytes in place, makes the message of those bytes (41_echo.md R122, R124). -/
theorem fbBytes_head (type : Byte) (s : State) (n : Nat) :
    fbBytes (fbStore 0 (messageHead type s) s) 0 (8 + n) = messageHead type s ++ fbBytes s 8 n := by
  have hhead : fbBytes (fbStore 0 (messageHead type s) s) 0 8 = messageHead type s := fbBytes_fbStore_self 0 _ s
  rw [fbBytes_add, hhead, Nat.zero_add, fbBytes_congr 8 n fun j hj _ => fbByte_head type s hj]

/-- An Echo build that fits makes the message of the payload in place (41_echo.md R124, R125). -/
theorem exists_builtFrom_echo (type : Byte) (h : echoLen s ≤ frameCap s) :
    ∃ t, buildFrame type (echoLen s) [] s = .next t ∧ BuiltFrom type (fbBytes s 8 s.plen.toNat) s t := by
  refine ⟨_, buildFrame_of_le h, builtFrom_sumAndPatch (by rw [fbBytes_length, echoLen]) h ?message ?beyond⟩
  case message => exact fbBytes_head type s _
  case beyond => exact fun k hk => fbByte_head type s ((Nat.le_add_right 8 _).trans hk)

/-- Without ID, SEQ and payload, which always fits, every summed byte of an Echo Reply is 0
(41_echo.md R125, 40_checksum.md R105 (b)). -/
theorem exec_buildEchoRep_zero (hid : s.ident = 0) (hseq : s.seqNum = 0) (hplen : s.plen = 0) :
    ∃ t, exec .buildEchoRep s = .next t ∧ t.csum = 0xFFFF := by
  have hlen : s.plen.toNat = 0 := congrArg BitVec.toNat hplen
  have hfits : echoLen s ≤ frameCap s := by
    have hcap := twenty_le_frameCap s
    unfold echoLen
    omega
  obtain ⟨t, hnext, hbuilt⟩ := exists_builtFrom_echo 0 hfits
  have hnone : fbBytes s 8 0 = [] := rfl
  refine ⟨t, hnext, ?_⟩
  rw [hbuilt.checksum, hid, hseq, hlen, hnone]
  exact csum_of_forall_eq_zero (by decide)

end Sys2Proof.Machine
end

section
/-! The obligations of the family 41_echo. -/

open Sys2Proof Sys2Proof.Machine

/-- Settles O33: the shared Echo build with type 8. -/
theorem buildEchoReqMakesFrame : Obligations.BuildEchoReqMakesFrame :=
  ⟨onlyWord_f0 fun _ => rfl, fun _ => exists_builtFrom_echo 8, fun _ => buildFrame_of_gt⟩

/-- Settles O34: the shared Echo build with type 0. The corner case, read under the last `∀`'s overflow premise,
is proved without it. -/
theorem buildEchoRepMakesFrame : Obligations.BuildEchoRepMakesFrame :=
  ⟨onlyWord_f0 fun _ => rfl, fun _ => exists_builtFrom_echo 0,
    fun _ h => ⟨buildFrame_of_gt h, fun _ => exec_buildEchoRep_zero⟩⟩

end

section
/-! The family 42_timestamp: the shared build of a message whose body comes from registers, and the stream a build of even length leaves (42_timestamp.md R140 to R142). -/

namespace Sys2Proof.Machine

variable {s t : State} {type : Byte} {body : List Byte}

/-! ### A build that stores its body -/

/-- The head and a body stored behind it make the message of that body (41_echo.md R122, R123). -/
theorem fbBytes_message (type : Byte) (body : List Byte) (s : State) :
    fbBytes (fbStore 8 body (fbStore 0 (messageHead type s) s)) 0 (8 + body.length) = messageHead type s ++ body := by
  have hbelow : fbBytes (fbStore 8 body (fbStore 0 (messageHead type s) s)) 0 8 = messageHead type s := by
    refine (fbBytes_congr 0 8 fun j _ hj => ?_).trans (fbBytes_fbStore_self 0 (messageHead type s) s)
    rw [fbByte_fbStore, if_neg (by omega)]
  rw [fbBytes_add, hbelow, Nat.zero_add, fbBytes_fbStore_self]

/-- A build that fits makes the message of the body it stores (41_echo.md R123). -/
theorem exists_builtFrom_stored (type : Byte) (h : 8 + body.length ≤ frameCap s) :
    ∃ t, buildFrame type (8 + body.length) body s = .next t ∧ BuiltFrom type body s t := by
  refine ⟨_, buildFrame_of_le h, builtFrom_sumAndPatch rfl h (fbBytes_message type body s) fun k hk => ?_⟩
  rw [fbByte_message, if_neg (by omega)]

/-! ### The stream a build leaves -/

/-- A build leaves PEND legal, its stream being a run over the message (10_state.md R36, 41_echo.md R123). -/
theorem BuiltFrom.pendLegal (h : BuiltFrom type body s t) : PendLegal t := by
  have hrun := pushBytes_pend emptyStream ([type, 0, 0, 0] ++ bytes16 s.ident ++ bytes16 s.seqNum ++ body) fun _ => rfl
  rw [← h.streamLeft] at hrun
  exact hrun

/-- A body of even length leaves no byte pending. -/
theorem BuiltFrom.noPending_of_even (h : BuiltFrom type body s t) (heven : body.length % 2 = 0) :
    t.odd = false ∧ t.pend = 0 := by
  have hodd : t.odd = false := by
    rw [h.odd, decide_eq_false_iff_not]
    omega
  exact ⟨hodd, h.pendLegal hodd⟩

/-! ### The Timestamp builds -/

/-- A Timestamp build fits in every state and makes the 20-byte message of ORIG, RECV and XMIT
(42_timestamp.md R140 to R142). -/
theorem exists_builtFrom_timestamp (type : Byte) (s : State) :
    ∃ t, buildFrame type 20 (timestampBody s) s = .next t ∧ BuiltFrom type (timestampBody s) s t
      ∧ frameLen t = 20 ∧ t.odd = false ∧ t.pend = 0 := by
  have hlen : (timestampBody s).length = 12 := rfl
  have hfits : 8 + (timestampBody s).length ≤ frameCap s := twenty_le_frameCap s
  obtain ⟨t, hnext, hbuilt⟩ := exists_builtFrom_stored type hfits
  exact ⟨t, hnext, hbuilt, hbuilt.length, hbuilt.noPending_of_even (by rw [hlen])⟩

end Sys2Proof.Machine
end

section
/-! The obligations of the family 42_timestamp. -/

open Sys2Proof Sys2Proof.Machine

/-- Settles O35: the shared Timestamp build with type 13. -/
theorem buildTsReqMakesFrame : Obligations.BuildTsReqMakesFrame :=
  ⟨onlyWord_f0 fun _ => rfl, exists_builtFrom_timestamp 13⟩

/-- Settles O36: the shared Timestamp build with type 14. -/
theorem buildTsRepMakesFrame : Obligations.BuildTsRepMakesFrame :=
  ⟨onlyWord_f0 fun _ => rfl, exists_builtFrom_timestamp 14⟩

end

section
/-! The family 43_frame_control: what each of RESUM, EMIT and CLR_ERR does in each of its cases, and that a valid packet already holds the checksum RESUM writes (43_frame_control.md R151 to R156). -/

namespace Sys2Proof.Machine

variable {s : State}

/-! ### The checksum field after the patch -/

theorem halfOfBytes_inj {a b c d : Byte} (h : halfOfBytes a b = halfOfBytes c d) : a = c ∧ b = d := by
  have hhigh := congrArg (BitVec.extractLsb' 8 8) h
  have hlow := congrArg (BitVec.extractLsb' 0 8) h
  rw [halfOfBytes_high, halfOfBytes_high] at hhigh
  rw [halfOfBytes_low, halfOfBytes_low] at hlow
  exact ⟨hhigh, hlow⟩

/-- The patch stores CSUM big-endian in FB[2 .. 3] (43_frame_control.md R151). -/
theorem field_sumAndPatch (n : Nat) (s : State) :
    halfOfBytes (fbByte (sumAndPatch n s) 2) (fbByte (sumAndPatch n s) 3) = (sumAndPatch n s).csum :=
  calc halfOfBytes (fbByte (sumAndPatch n s) 2) (fbByte (sumAndPatch n s) 3)
    _ = halfOfBytes ((sumAndPatch n s).csum.extractLsb' 8 8) ((sumAndPatch n s).csum.extractLsb' 0 8) := by
      simp [sumAndPatch, fbByte_fbStore, bytes16]
    _ = (sumAndPatch n s).csum := halfOfBytes_bytes16 _

/-! ### RESUM -/

/-- The state after a RESUM that succeeds (43_frame_control.md R151). -/
def resummed (s : State) : State := sumAndPatch (frameLen s) (fbStore 2 (bytes16 0) s)

theorem exec_resum_of_le (h4 : 4 ≤ frameLen s) (h : frameLen s ≤ frameCap s) : exec .resum s = .next (resummed s) :=
  (if_neg (by omega)).trans (if_neg (by omega))

theorem exec_resum_of_gt (h : frameLen s > frameCap s) : exec .resum s = .next (recordError .frameOverflow s) :=
  if_pos h

theorem exec_resum_of_short (h : frameLen s ≤ frameCap s) (hs : frameLen s < 4) :
    exec .resum s = .next (recordError .frameShort s) :=
  (if_neg (by omega)).trans (if_pos hs)

/-- RESUM sums the frame with its field taken as zero (43_frame_control.md R151). -/
theorem fbBytes_zeroStore_eq_zeroedView (s : State) (n : Nat) :
    fbBytes (fbStore 2 (bytes16 0) s) 0 n = zeroedView s n :=
  (fbBytes_zeroStore s n).trans (zeroedView_eq s n).symm

theorem resummed_csum (s : State) : (resummed s).csum = csum (zeroedView s (frameLen s)) := by
  rw [resummed, sumAndPatch_csum, fbBytes_zeroStore_eq_zeroedView]

theorem stream_resummed (s : State) : stream (resummed s) = pushBytes emptyStream (zeroedView s (frameLen s)) := by
  rw [resummed, stream_sumAndPatch, fbBytes_zeroStore_eq_zeroedView]

theorem resummed_odd (s : State) : (resummed s).odd = decide (frameLen s % 2 = 1) :=
  calc (stream (resummed s)).odd
    _ = (pushBytes emptyStream (zeroedView s (frameLen s))).odd := by rw [stream_resummed]
    _ = decide ((zeroedView s (frameLen s)).length % 2 = 1) := (pushBytes_odd _ _).trans (Bool.false_xor _)
    _ = decide (frameLen s % 2 = 1) := by rw [zeroedView_length]

/-- RESUM writes no byte outside the checksum field (43_frame_control.md R151). -/
theorem fbByte_resummed (s : State) {k : Nat} (h2 : k ≠ 2) (h3 : k ≠ 3) : fbByte (resummed s) k = fbByte s k := by
  rw [resummed, fbByte_sumAndPatch _ _ _ ⟨h2, h3⟩, fbByte_fbStore, if_neg (by rw [bytes16_length]; omega)]

/-- A valid packet holds the checksum that RESUM computes, so RESUM keeps all its bytes (43_frame_control.md R151). -/
theorem sameFb_resummed (h : ValidPacket (frame s)) : SameFb s (resummed s) := by
  obtain ⟨hlen, hstored⟩ := h
  rw [frame_length] at hlen
  have hfield : halfOfBytes (fbByte (resummed s) 2) (fbByte (resummed s) 3) = halfOfBytes (fbByte s 2) (fbByte s 3) :=
    calc halfOfBytes (fbByte (resummed s) 2) (fbByte (resummed s) 3)
      _ = (resummed s).csum := field_sumAndPatch _ _
      _ = csum (zeroField (frame s)) := by rw [resummed_csum, zeroedView_eq, frame]
      _ = halfOfBytes (fbByte s 2) (fbByte s 3) := hstored.symm.trans (storedField_fbBytes s _ hlen)
  obtain ⟨hhigh, hlow⟩ := halfOfBytes_inj hfield
  intro k
  by_cases h2 : k = 2
  · rw [h2, hhigh]
  · by_cases h3 : k = 3
    · rw [h3, hlow]
    · exact fbByte_resummed s h2 h3

/-- RESUM keeps LEN, the parameters, the error record, the verdict and the outside world
(43_frame_control.md R151). -/
theorem resummed_sameRest (s : State) : (resummed s).len = s.len ∧ SameParameters s (resummed s)
    ∧ SameErrors s (resummed s) ∧ SameVerdict s (resummed s) ∧ SameOutside s (resummed s) := by
  simp [resummed, SameParameters, SameErrors, SameVerdict, SameOutside]

theorem resummed_frameValid (s : State) : (resummed s).frameValid = true := sumAndPatch_frameValid _ _

/-! ### EMIT -/

theorem exec_emit_of_gt (h : frameLen s > frameCap s) : exec .emit s = .next (recordError .frameOverflow s) :=
  if_pos h

theorem exec_emit_of_stale (h : frameLen s ≤ frameCap s) (hv : s.frameValid = false) :
    exec .emit s = .next (recordError .staleFrame s) :=
  (if_neg (by omega)).trans (if_pos hv)

theorem exec_emit_of_ok (h : frameLen s ≤ frameCap s) (hv : s.frameValid = true) (ha : sinkAnswer s = some .ok) :
    exec .emit s = .next (appendOut ⟨frame s, .ok⟩ (consumeSink s)) := by
  refine (if_neg (by omega)).trans ((if_neg (by simp [hv])).trans ?_)
  rw [ha]

/-- An answer `error` is recorded, and the attempt stays in OUT (43_frame_control.md R152). -/
theorem exec_emit_of_error (h : frameLen s ≤ frameCap s) (hv : s.frameValid = true)
    (ha : sinkAnswer s = some .error) :
    exec .emit s = .next (recordError .sinkError (appendOut ⟨frame s, .error⟩ (consumeSink s))) := by
  refine (if_neg (by omega)).trans ((if_neg (by simp [hv])).trans ?_)
  rw [ha]
  rfl

/-- An attempt touches OUT and the sink's bookkeeping alone (43_frame_control.md R152, log entry 4). -/
theorem appendOut_consumeSink (e : OutEntry) (s : State) : appendOut e (consumeSink s) = { s with
    out := s.out ++ [e], sink := (consumeSink s).sink, sinkDraws := (consumeSink s).sinkDraws } := by
  unfold consumeSink
  split <;> rfl

/-! ### CLR_ERR -/

/-- CLR_ERR without a recorded error changes nothing (43_frame_control.md R156). -/
theorem clearError_eq_self (he : s.err = false) (hc : s.errCode = .none) : clearError s = s := by
  rw [clearError, ← he, ← hc]

theorem command_of_illegal {c : Word} (h : ∃ r, decode c = .illegal r) (s : State) :
    command c s = .next (recordError .illegalCmd s) := by
  obtain ⟨r, hr⟩ := h
  simp only [command, hr, raiseError]

end Sys2Proof.Machine
end

section
/-! The obligations of the family 43_frame_control. -/

open Sys2Proof Sys2Proof.Machine

/-- Settles O37: a RESUM that succeeds leaves `resummed`, which patches FB[2 .. 3] with what a valid packet already
holds there; a fresh frame of a legal state is such a packet. -/
theorem resumPatchesChecksum : Obligations.ResumPatchesChecksum := by
  refine ⟨onlyWord_f0 fun _ => rfl, fun s h4 hle => ⟨_, exec_resum_of_le h4 hle, ?patch⟩, fun s hlegal hfresh => ?fresh,
    fun s => exec_resum_of_gt, fun s => exec_resum_of_short⟩
  case patch =>
    obtain ⟨hlen, hparameters, herrors, hverdict, houtside⟩ := resummed_sameRest s
    exact ⟨resummed_csum s, field_sumAndPatch _ _, fun k => fbByte_resummed s, stream_resummed s, resummed_odd s, hlen,
      resummed_frameValid s, hparameters, herrors, hverdict, houtside, sameFb_resummed⟩
  case fresh =>
    obtain ⟨hle, hvalid⟩ := hlegal.fresh hfresh
    obtain ⟨hlen, -⟩ := resummed_sameRest s
    have h4 : 4 ≤ frameLen s := frame_length s ▸ hvalid.1
    exact ⟨_, exec_resum_of_le h4 hle, sameFb_resummed hvalid, hlen, (resummed_frameValid s).trans hfresh.symm⟩

/-- Settles O26: NOP is the identity, and its word is the F0 word of OP 0x00. -/
theorem nopChangesNothing : Obligations.NopChangesNothing := ⟨onlyWord_f0 fun _ => rfl, fun _ => rfl⟩

/-- Settles O38: one lemma per outcome of EMIT, the attempt written out by `appendOut_consumeSink`. -/
theorem emitHandsFrameToSink : Obligations.EmitHandsFrameToSink := by
  refine ⟨onlyWord_f0 fun _ => rfl, fun s a hle hfresh hanswer => ?attempt, fun s => exec_emit_of_gt,
    fun s => exec_emit_of_stale⟩
  case attempt =>
    cases a with
    | ok => rw [exec_emit_of_ok hle hfresh hanswer, appendOut_consumeSink]
    | error => rw [exec_emit_of_error hle hfresh hanswer, appendOut_consumeSink]

/-- Settles O39: `clearError` writes ERR and ERRCODE alone, and every other word with OP 0x3F is ILLEGAL. -/
theorem clrErrClearsErrorRecord : Obligations.ClrErrClearsErrorRecord := by
  have hword : OnlyWord 0x3F 0x3F000000 .clrErr := onlyWord_f0 fun _ => rfl
  refine ⟨hword, fun _ => rfl, fun s herr hcode => congrArg Host.Outcome.next (clearError_eq_self herr hcode),
    fun s c hop hne => ⟨_, command_of_illegal (hword.2 c hop hne) s, rfl⟩⟩

end

section
/-! The family other, commands: everything a command can do, said once, with the builds and the errors named (30_encoding.md R73, 41_echo.md R123, 60_exceptions.md R201 to R206). -/

namespace Sys2Proof.Machine

variable {s t : State} {i : Instr} {c : ErrCode} {type : Byte} {n : Nat} {body : List Byte} {k : Nat}

/-! ### The builds -/

/-- The four builds: the type, the length and the body each hands to the shared procedure
(41_echo.md R124, R125, 42_timestamp.md R141, R142). -/
inductive Builds (s : State) : Instr → Byte → Nat → List Byte → Prop where
  | echoReq : Builds s .buildEchoReq 8 (echoLen s) []
  | echoRep : Builds s .buildEchoRep 0 (echoLen s) []
  | tsReq : Builds s .buildTsReq 13 20 (timestampBody s)
  | tsRep : Builds s .buildTsRep 14 20 (timestampBody s)

/-- The state after a build that fits (41_echo.md R123). -/
def built (type : Byte) (n : Nat) (body : List Byte) (s : State) : State :=
  sumAndPatch n (setLen n (fbStore 8 body (fbStore 0 (messageHead type s) s)))

theorem Builds.exec_eq (h : Builds s i type n body) : exec i s = buildFrame type n body s := by cases h <;> rfl

theorem Builds.exec_of_le (h : Builds s i type n body) (hn : n ≤ frameCap s) :
    exec i s = .next (built type n body s) :=
  h.exec_eq.trans (buildFrame_of_le hn)

theorem Builds.mem (h : Builds s i type n body) :
    i ∈ [Instr.buildEchoReq, .buildEchoRep, .buildTsReq, .buildTsRep] := by
  cases h <;> decide

theorem Builds.stored_le (h : Builds s i type n body) : 8 + body.length ≤ n := by
  cases h with
  | echoReq | echoRep => exact Nat.le_add_right 8 _
  | tsReq | tsRep => exact Nat.le_refl 20

theorem Builds.sealSucceeds (h : Builds s i type n body) (hs : SealSucceeds i s) : n ≤ frameCap s := by
  cases h with
  | echoReq | echoRep => exact hs
  | tsReq | tsRep => exact twenty_le_frameCap s

/-! ### The errors -/

/-- The errors a command records, and when; EMIT's SINK_ERROR, which comes with an attempt, stands apart
(60_exceptions.md R204 to R206). -/
inductive Raises (s : State) : Instr → ErrCode → Prop where
  | overflow {i : Instr} (hi : i ∈ [Instr.ckBuf, .validate, .resum, .emit]) (h : frameLen s > frameCap s) :
    Raises s i .frameOverflow
  | echoOverflow {i : Instr} (hi : i ∈ [Instr.buildEchoReq, .buildEchoRep]) (h : echoLen s > frameCap s) :
    Raises s i .frameOverflow
  | short (h : frameLen s < 4) : Raises s .resum .frameShort
  | stale (h : s.frameValid = false) : Raises s .emit .staleFrame

theorem Raises.ne_none (h : Raises s i c) : c ≠ .none := by cases h <;> decide

theorem Builds.raises (h : Builds s i type n body) (hn : n > frameCap s) : Raises s i .frameOverflow := by
  cases h with
  | echoReq | echoRep => exact .echoOverflow (by decide) hn
  | tsReq | tsRep => exact absurd (twenty_le_frameCap s) (by omega)

/-! ### Everything a command can do -/

/-- The states a command can end in, each with the command and the condition that lead to it. -/
inductive Effect (s : State) : Instr → State → Prop where
  | nop : Effect s .nop s
  | clrErr : Effect s .clrErr (clearError s)
  | error {i : Instr} {c : ErrCode} (h : Raises s i c) : Effect s i (recordError c s)
  | clear : Effect s .ckClear (setStream emptyStream s)
  | push {i : Instr} {bs : List Byte} (h : pushedBytes i = some bs) : Effect s i (setStream (pushBytes (stream s) bs) s)
  | final : Effect s .ckFinal (finalize s)
  | buf (hle : frameLen s ≤ frameCap s) : Effect s .ckBuf (sumBytes (frame s) s)
  | short (hle : frameLen s ≤ frameCap s) (hs : frameLen s < 4) : Effect s .validate (setVerdict false true s)
  | compare (hle : frameLen s ≤ frameCap s) (h4 : 4 ≤ frameLen s) : Effect s .validate
      (setVerdict (decide (csum (zeroField (frame s)) = halfOfBytes (fbByte s 2) (fbByte s 3))) false
        (sumBytes (zeroField (frame s)) s))
  | build {i : Instr} {type : Byte} {n : Nat} {body : List Byte} (h : Builds s i type n body) (hle : n ≤ frameCap s) :
    Effect s i (built type n body s)
  | resum (hle : frameLen s ≤ frameCap s) (h4 : 4 ≤ frameLen s) : Effect s .resum (resummed s)
  | sent (hle : frameLen s ≤ frameCap s) (hv : s.frameValid = true) (ha : sinkAnswer s = some .ok) :
    Effect s .emit (appendOut ⟨frame s, .ok⟩ (consumeSink s))
  | failed (hle : frameLen s ≤ frameCap s) (hv : s.frameValid = true) (ha : sinkAnswer s = some .error) :
    Effect s .emit (recordError .sinkError (appendOut ⟨frame s, .error⟩ (consumeSink s)))

theorem Builds.effect (hb : Builds s i type n body) (h : exec i s = .next t) : Effect s i t := by
  rcases buildFrame_cases (hb.exec_eq.symm.trans h) with ⟨hn, rfl⟩ | ⟨hn, rfl⟩
  · exact .error (hb.raises hn)
  · exact .build hb hn

theorem effect_of_pushedBytes {bs : List Byte} (hp : pushedBytes i = some bs) (h : exec i s = .next t) :
    Effect s i t := by
  obtain rfl := Host.Outcome.next.inj ((exec_of_pushedBytes hp).symm.trans h)
  exact .push hp

/-- Everything a command can do. -/
theorem exec_effect (h : exec i s = .next t) : Effect s i t := by
  cases i with
  | nop => obtain rfl := Host.Outcome.next.inj h; exact .nop
  | clrErr => obtain rfl := Host.Outcome.next.inj h; exact .clrErr
  | ckClear => obtain rfl := Host.Outcome.next.inj h; exact .clear
  | ckFinal => obtain rfl := Host.Outcome.next.inj h; exact .final
  | ckAdd16 w => exact effect_of_pushedBytes (bs := bytes16 w) rfl h
  | ckAdd8 b => exact effect_of_pushedBytes (bs := [b]) rfl h
  | ckBuf =>
    rcases execCkBuf_cases h with ⟨hgt, rfl⟩ | ⟨hle, rfl⟩
    · exact .error (.overflow (by decide) hgt)
    · exact .buf hle
  | validate =>
    rcases execValidate_cases h with ⟨hgt, rfl⟩ | ⟨hle, hs, rfl⟩ | ⟨hle, h4, rfl⟩
    · exact .error (.overflow (by decide) hgt)
    · exact .short hle hs
    · exact .compare hle h4
  | buildEchoReq => exact Builds.echoReq.effect h
  | buildEchoRep => exact Builds.echoRep.effect h
  | buildTsReq => exact Builds.tsReq.effect h
  | buildTsRep => exact Builds.tsRep.effect h
  | resum =>
    rcases execResum_cases h with ⟨hgt, rfl⟩ | ⟨-, hs, rfl⟩ | ⟨hle, h4, rfl⟩
    · exact .error (.overflow (by decide) hgt)
    · exact .error (.short hs)
    · exact .resum hle h4
  | emit =>
    rcases execEmit_cases h with ⟨hgt, rfl⟩ | ⟨-, hv, rfl⟩ | ⟨hle, hv, ha, rfl⟩ | ⟨hle, hv, ha, rfl⟩
    · exact .error (.overflow (by decide) hgt)
    · exact .error (.stale hv)
    · exact .sent hle hv ha
    · exact .failed hle hv ha

/-! ### What the sealing commands leave -/

theorem frameLen_stored (hle : n ≤ frameCap s) :
    frameLen (setLen n (fbStore 8 body (fbStore 0 (messageHead type s) s))) = n := by
  have hcap := frameCap_le s
  simp only [frameLen, setLen_len, BitVec.toNat_ofNat]
  omega

theorem fbByte_zeroStore_field (hk : k = 2 ∨ k = 3) (s : State) : fbByte (fbStore 2 (bytes16 0) s) k = 0 := by
  rcases hk with rfl | rfl <;> simp [fbByte_fbStore, bytes16]

theorem fbByte_built_field (hk : k = 2 ∨ k = 3) (type : Byte) (n : Nat) (body : List Byte) (s : State) :
    fbByte (setLen n (fbStore 8 body (fbStore 0 (messageHead type s) s))) k = 0 := by
  rw [fbByte_setLen, fbByte_message, if_pos (by omega)]
  rcases hk with rfl | rfl <;> simp [messageHead, bytes16]

/-- A build writes no byte behind the head and the body it stores (41_echo.md R123). -/
theorem fbByte_built (hk : 8 + body.length ≤ k) : fbByte (built type n body s) k = fbByte s k := by
  rw [built, fbByte_sumAndPatch _ _ _ (by omega), fbByte_setLen, fbByte_message, if_neg (by omega)]

/-- A build writes the stream, CSUM, LEN, FRAME_VALID and FB alone (41_echo.md R123). -/
theorem built_sameRest (type : Byte) (n : Nat) (body : List Byte) (s : State) :
    SameParameters s (built type n body s) ∧ SameErrors s (built type n body s)
      ∧ SameVerdict s (built type n body s) ∧ SameOutside s (built type n body s) := by
  simp [built, SameParameters, SameErrors, SameVerdict, SameOutside]

@[simp] theorem built_frameValid (type : Byte) (n : Nat) (body : List Byte) (s : State) :
    (built type n body s).frameValid = true := sumAndPatch_frameValid _ _

end Sys2Proof.Machine
end

section
/-! The family other, legal states: each state a command can end in, and each update of a host access, keeps the legal states (10_state.md R28 to R36, R45, 43_frame_control.md R150). -/

namespace Sys2Proof.Machine

variable {s t : State} {i : Instr} {type : Byte} {n : Nat} {body : List Byte}

/-! ### The updates of the commands -/

/-- A legal state stays legal when only ACC, ODD, PEND, CSUM, the error record, the parameters, the sink and the
host's port change, and the changes keep the error record and PEND legal. -/
theorem LegalState_congr (herr : ErrRecordLegal t) (hpend : PendLegal t)
    (hsame : SameVerdict s t ∧ SameFrameStatus s t ∧ t.fb = s.fb ∧ t.fbEpoch = s.fbEpoch ∧ t.cap = s.cap
      ∧ t.out = s.out)
    (h : LegalState s) : LegalState t := by
  obtain ⟨⟨hvdone, hmatched, hshort⟩, ⟨hlen, hvalid⟩, hfb, hepoch, hcap, hout⟩ := hsame
  refine ⟨herr, hpend, ?_, FbLegal_congr hfb hcap h.fb, ?_, ?_⟩
  · unfold VerdictLegal
    rw [hvdone, hmatched, hshort]
    exact h.verdict
  · exact FreshFrameValid_congr hvalid hlen hcap (fun j _ => fbByte_congr hfb hepoch j) h.fresh
  · unfold OutValid
    rw [hout]
    exact h.out

theorem LegalState_clearError (h : LegalState s) : LegalState (clearError s) :=
  LegalState_congr (iff_of_true rfl rfl) h.pend (by simp [SameVerdict, SameFrameStatus]) h

theorem LegalState_setStream {u : CkStream} (hu : u.odd = false → u.pend = 0) (h : LegalState s) :
    LegalState (setStream u s) :=
  LegalState_congr h.errRecord hu (by simp [SameVerdict, SameFrameStatus]) h

theorem LegalState_finalize (h : LegalState s) : LegalState (finalize s) :=
  LegalState_congr (by simpa [ErrRecordLegal] using h.errRecord) (by simpa [PendLegal] using h.pend)
    (by simp [SameVerdict, SameFrameStatus]) h

theorem LegalState_sumBytes (bs : List Byte) (h : LegalState s) : LegalState (sumBytes bs s) :=
  LegalState_finalize (LegalState_setStream (pushBytes_pend emptyStream bs fun _ => rfl) h)

theorem frame_sumBytes (bs : List Byte) (s : State) : frame (sumBytes bs s) = frame s :=
  frame_congr (sumBytes_len s bs) fun j _ => fbByte_sumBytes bs s j

theorem LegalState_setVerdict {m short : Bool} (hnot : ¬ (m = true ∧ short = true))
    (hfresh : m = true → frameLen s ≤ frameCap s ∧ ValidPacket (frame s)) (h : LegalState s) :
    LegalState (setVerdict m short s) :=
  ⟨h.errRecord, h.pend, ⟨fun _ => rfl, fun _ => rfl, hnot⟩, FbLegal_congr rfl rfl h.fb, hfresh, h.out⟩

theorem LegalState_consumeSink (h : LegalState s) : LegalState (consumeSink s) :=
  LegalState_congr (by simpa [ErrRecordLegal] using h.errRecord) (by simpa [PendLegal] using h.pend)
    (by simp [SameVerdict, SameFrameStatus]) h

theorem LegalState_appendOut {e : OutEntry} (he : ValidPacket e.bytes) (h : LegalState s) :
    LegalState (appendOut e s) := by
  refine ⟨h.errRecord, h.pend, h.verdict, FbLegal_congr rfl rfl h.fb,
    FreshFrameValid_congr rfl rfl rfl (fun _ _ => rfl) h.fresh, fun o ho => ?_⟩
  rcases List.mem_append.1 ho with hold | hnew
  · exact h.out o hold
  · exact List.mem_singleton.1 hnew ▸ he

/-- A build that fits leaves a legal state: its checksum field was zero when the frame was summed
(41_echo.md R123, 40_checksum.md R113 (a)). -/
theorem LegalState_built (hb : 8 + body.length ≤ n) (hle : n ≤ frameCap s) (h : LegalState s) :
    LegalState (built type n body s) := by
  have hhead : FbLegal (fbStore 0 (messageHead type s) s) :=
    FbLegal_fbStore h.fb (by rw [messageHead_length]; omega)
  have hstored : FbLegal (fbStore 8 body (fbStore 0 (messageHead type s) s)) :=
    FbLegal_fbStore hhead (hb.trans hle)
  refine LegalState_sumAndPatch ?err ?verdict ?fb ?out (by omega) hle (frameLen_stored hle)
    (fbByte_built_field (.inl rfl) type n body s) (fbByte_built_field (.inr rfl) type n body s)
  case err => simpa [ErrRecordLegal] using h.errRecord
  case verdict => simpa [VerdictLegal] using h.verdict
  case fb => exact FbLegal_congr rfl rfl hstored
  case out => simpa [OutValid] using h.out

/-- A RESUM that succeeds leaves a legal state (43_frame_control.md R151). -/
theorem LegalState_resummed (hle : frameLen s ≤ frameCap s) (h4 : 4 ≤ frameLen s) (h : LegalState s) :
    LegalState (resummed s) := by
  have hstored : FbLegal (fbStore 2 (bytes16 0) s) := FbLegal_fbStore h.fb (by rw [bytes16_length]; omega)
  exact LegalState_sumAndPatch h.errRecord h.verdict hstored h.out h4 hle rfl (fbByte_zeroStore_field (.inl rfl) s)
    (fbByte_zeroStore_field (.inr rfl) s)

/-- No command leaves the legal states. A matching VALIDATE has found the checksum that makes the frame a valid
packet, and EMIT offers fresh frames only (40_checksum.md R111, 43_frame_control.md R152). -/
theorem LegalState_exec (h : exec i s = .next t) (hl : LegalState s) : LegalState t := by
  cases exec_effect h with
  | nop => exact hl
  | clrErr => exact LegalState_clearError hl
  | error hr => exact LegalState_recordError hr.ne_none hl
  | clear => exact LegalState_setStream (fun _ => rfl) hl
  | push => exact LegalState_setStream (pushBytes_pend _ _ hl.pend) hl
  | final => exact LegalState_finalize hl
  | buf => exact LegalState_sumBytes _ hl
  | short => exact LegalState_setVerdict (by simp) (by simp) hl
  | compare hle h4 =>
    refine LegalState_setVerdict (by simp) (fun hm => ?_) (LegalState_sumBytes _ hl)
    have hstored : storedField (frame s) = halfOfBytes (fbByte s 2) (fbByte s 3) := storedField_fbBytes s _ h4
    have hvalid : ValidPacket (frame s) := ⟨by rwa [frame_length], hstored.trans (of_decide_eq_true hm).symm⟩
    rw [frame_sumBytes]
    exact ⟨hle, hvalid⟩
  | build hb hle => exact LegalState_built hb.stored_le hle hl
  | resum hle h4 => exact LegalState_resummed hle h4 hl
  | sent hle hv => exact LegalState_appendOut (hl.fresh hv).2 (LegalState_consumeSink hl)
  | failed hle hv =>
    exact LegalState_recordError (by decide) (LegalState_appendOut (hl.fresh hv).2 (LegalState_consumeSink hl))

/-! ### The updates of a host access and of reset -/

theorem LegalState_reply {r : Reply} (h : LegalState s) : LegalState (reply r s) :=
  LegalState_congr h.errRecord h.pend (by simp [SameVerdict, SameFrameStatus]) h

theorem LegalState_resetBlock (h : LegalState s) : LegalState (resetBlock s) :=
  ⟨iff_of_true rfl rfl, fun _ => rfl, ⟨nofun, nofun, nofun⟩, ⟨rfl, nofun⟩, FreshFrameValid_of_stale rfl, h.out⟩

theorem LegalState_writeReg {r : Reg} {v : Word} (hr : r ≠ .cmd) (h : writeReg r v s = .next t) (hl : LegalState s) :
    LegalState t := by
  cases r with
  | cmd => exact absurd rfl hr
  | status | acc | csum | pend | cap =>
    obtain rfl := Host.Outcome.next.inj h
    exact LegalState_recordError (by decide) hl
  | ident | seqNum | orig | recv | xmit | plen =>
    obtain rfl := Host.Outcome.next.inj h
    exact LegalState_congr hl.errRecord hl.pend (by simp [SameVerdict, SameFrameStatus]) hl
  | len =>
    obtain rfl := Host.Outcome.next.inj h
    exact ⟨hl.errRecord, hl.pend, hl.verdict, FbLegal_congr rfl rfl hl.fb, FreshFrameValid_of_stale rfl, hl.out⟩

/-- A byte written inside the frame makes it stale, and one written behind it is not the frame's
(20_memory.md R55). -/
theorem LegalState_writeFb {k : Nat} {v : Byte} (hk : k < frameCap s) (h : LegalState s) :
    LegalState (writeFb k v s) := by
  rw [writeFb_eq]
  refine ⟨h.errRecord, h.pend, h.verdict, FbLegal_congr rfl rfl (FbLegal_fbStore (bs := [v]) h.fb hk), ?_, h.out⟩
  by_cases hin : k < frameLen s
  · exact FreshFrameValid_of_stale (if_pos hin)
  · refine FreshFrameValid_congr (if_neg hin) rfl rfl (fun j hj => ?_) h.fresh
    rw [fbByte_setFrameValid, fbByte_fbStore, if_neg (by omega)]

/-- No step leaves the legal states. -/
theorem LegalState_step (h : step s = .next t) (hl : LegalState s) : LegalState t := by
  rcases step_cases h with ⟨-, rfl⟩ | ⟨rest, hreset | hcmd | hreg | hfb | hread | hbadRead | hbad⟩
  · exact hl
  all_goals have hhost : LegalState (setHost rest s) := LegalState_setHost hl
  · obtain ⟨-, rfl⟩ := hreset
    exact LegalState_resetBlock hhost
  · obtain ⟨_, _, -, -, hx⟩ := hcmd
    exact LegalState_exec hx hhost
  · obtain ⟨_, _, hr, -, hw⟩ := hreg
    exact LegalState_writeReg hr hw hhost
  · obtain ⟨_, _, hk, -, rfl⟩ := hfb
    exact LegalState_writeFb hk hhost
  · obtain ⟨_, _, -, -, -, rfl⟩ := hread
    exact LegalState_reply hhost
  · obtain ⟨_, _, -, -, -, rfl⟩ := hbadRead
    exact LegalState_reply (LegalState_recordError (by decide) hhost)
  · obtain ⟨_, c, -, -, hc, rfl⟩ := hbad
    exact LegalState_recordError (by rcases hc with rfl | rfl <;> decide) hhost

end Sys2Proof.Machine
end

section
/-! The obligations of the family other about decoding and legal states. -/

open Sys2Proof Sys2Proof.Machine

/-- Settles O1: the decoder is the inverse of the encoder. -/
theorem decodeEncodeRoundTrip : Obligations.DecodeEncodeRoundTrip :=
  fun _ _ => decode_eq_instr_iff.2 rfl

/-- Settles O2: the decoder is the inverse of the encoder, read the other way. -/
theorem encodeDecodeRoundTrip : Obligations.EncodeDecodeRoundTrip :=
  fun _ _ h => (decode_eq_instr_iff.1 h).symm

/-- Settles O5: each word is evaluated. -/
theorem decodeExamples : Obligations.DecodeExamples := by
  refine ⟨?_, ?_, ?_, ?_, ?_, ?_, ?_, ?_⟩ <;> decide

/-- Settles O49: each event keeps each part of the invariant, a command by `LegalState_exec`. -/
theorem stepKeepsLegalState : Obligations.StepKeepsLegalState :=
  fun _ _ hl h => LegalState_step h hl

/-- Settles O48: nothing is fresh, nothing is out and no cell is written. -/
theorem resetStateIsLegal : Obligations.ResetStateIsLegal :=
  ⟨iff_of_true rfl rfl, fun _ => rfl, ⟨nofun, nofun, nofun⟩, ⟨rfl, nofun⟩, FreshFrameValid_of_stale rfl, nofun⟩

end

section
/-! The family other, frames of the commands: which fields each command can write, read off everything it can do (10_state.md R26 to R47, 60_exceptions.md R200 to R211). -/

namespace Sys2Proof.Machine

variable {s t : State} {i : Instr} {c : ErrCode}

/-! ### The error record -/

theorem sameErrors_refl (s : State) : SameErrors s s := ⟨rfl, rfl⟩

/-- What a command can do to the error record: keep it, clear it, record an error with no other effect, or record
the sink's error with the attempt (60_exceptions.md R200, 43_frame_control.md R156). -/
theorem exec_errors (h : exec i s = .next t) :
    SameErrors s t ∨ (i = .clrErr ∧ t = clearError s) ∨ (∃ c, Raises s i c ∧ t = recordError c s)
      ∨ (i = .emit ∧ t = recordError .sinkError (appendOut ⟨frame s, .error⟩ (consumeSink s))) := by
  cases exec_effect h with
  | nop => exact .inl (sameErrors_refl _)
  | clrErr => exact .inr (.inl ⟨rfl, rfl⟩)
  | error hr => exact .inr (.inr (.inl ⟨_, hr, rfl⟩))
  | clear | push | final | buf | short | compare | sent => exact .inl (by simp [SameErrors])
  | build =>
    obtain ⟨-, herrors, -⟩ := built_sameRest ..
    exact .inl herrors
  | resum =>
    obtain ⟨-, -, herrors, -⟩ := resummed_sameRest s
    exact .inl herrors
  | failed => exact .inr (.inr (.inr ⟨rfl, rfl⟩))

/-- The first code stays until CLR_ERR (60_exceptions.md R211). -/
theorem exec_errors_of_err (h : exec i s = .next t) (herr : s.err = true) (hi : i ≠ .clrErr) :
    t.err = true ∧ t.errCode = s.errCode := by
  rcases exec_errors h with ⟨hsame, hcode⟩ | ⟨hclr, -⟩ | ⟨c, -, rfl⟩ | ⟨-, rfl⟩
  · exact ⟨hsame.trans herr, hcode⟩
  · exact absurd hclr hi
  · simp [herr]
  · simp [herr]

/-- FRAME_SHORT is recorded by RESUM alone (60_exceptions.md R205). -/
theorem exec_frameShort (h : exec i s = .next t) (hi : i ≠ .resum) (hcode : t.errCode = .frameShort) :
    s.errCode = .frameShort := by
  rcases exec_errors h with ⟨-, hsame⟩ | ⟨-, rfl⟩ | ⟨c, hr, rfl⟩ | ⟨-, rfl⟩
  · exact hsame.symm.trans hcode
  · exact nomatch hcode
  · have hc : c ≠ .frameShort := by
      cases hr with
      | short => exact absurd rfl hi
      | overflow | echoOverflow | stale => decide
    by_cases herr : s.err = true <;> simp_all
  · by_cases herr : s.err = true <;> simp_all

/-- A command that succeeds in sealing the frame raises no error. -/
theorem Raises.not_sealSucceeds (h : Raises s i c) : ¬ SealSucceeds i s := by
  cases h with
  | overflow hi h =>
    simp only [List.mem_cons, List.not_mem_nil, or_false] at hi
    rcases hi with rfl | rfl | rfl | rfl
    case inr.inr.inl => exact fun hs => absurd hs.2 (by omega)
    all_goals exact id
  | echoOverflow hi h =>
    simp only [List.mem_cons, List.not_mem_nil, or_false] at hi
    rcases hi with rfl | rfl <;> exact fun hs : echoLen s ≤ frameCap s => absurd hs (by omega)
  | short h => exact fun hs => absurd hs.1 (by omega)
  | stale => exact id

theorem exec_sameErrors_of_seal (h : exec i s = .next t) (hs : SealSucceeds i s) : SameErrors s t := by
  rcases exec_errors h with hsame | ⟨rfl, -⟩ | ⟨c, hr, -⟩ | ⟨rfl, -⟩
  · exact hsame
  · exact hs.elim
  · exact absurd hs hr.not_sealSucceeds
  · exact hs.elim

/-- CK_BUF and VALIDATE raise no error but FRAME_OVERFLOW (40_checksum.md R110, R111). -/
theorem exec_sameErrors_of_le (h : exec i s = .next t) (hi : i = .ckBuf ∨ i = .validate)
    (hle : frameLen s ≤ frameCap s) : SameErrors s t := by
  rcases exec_errors h with hsame | ⟨rfl, -⟩ | ⟨c, hr, -⟩ | ⟨rfl, -⟩
  · exact hsame
  · simp at hi
  · cases hr with
    | overflow _ hgt => omega
    | echoOverflow hmem => rcases hi with rfl | rfl <;> exact absurd hmem (by decide)
    | short | stale => exact absurd hi (by decide)
  · simp at hi

/-! ### The verdict -/

theorem exec_sameVerdict (h : exec i s = .next t) (hi : i ≠ .validate) : SameVerdict s t := by
  cases exec_effect h with
  | short | compare => exact absurd rfl hi
  | build =>
    obtain ⟨-, -, hverdict, -⟩ := built_sameRest ..
    exact hverdict
  | resum =>
    obtain ⟨-, -, -, hverdict, -⟩ := resummed_sameRest s
    exact hverdict
  | nop | clrErr | error | clear | push | final | buf | sent | failed => simp [SameVerdict]

/-- VALIDATE never takes VDONE back (10_state.md R29). -/
theorem exec_vdone (h : exec i s = .next t) (hv : s.vdone = true) : t.vdone = true := by
  by_cases hi : i = .validate
  · subst hi
    rcases execValidate_cases h with ⟨-, rfl⟩ | ⟨-, -, rfl⟩ | ⟨-, -, rfl⟩ <;> simp [hv]
  · exact (exec_sameVerdict h hi).1.trans hv

/-! ### The stream and CSUM -/

/-- The commands that write ACC, ODD and PEND (10_state.md R34, R36). -/
theorem exec_stream_writers (h : exec i s = .next t) :
    (t.acc = s.acc ∧ t.odd = s.odd ∧ t.pend = s.pend) ∨ i = .ckClear ∨ (∃ w, i = .ckAdd16 w) ∨ (∃ b, i = .ckAdd8 b)
      ∨ (i = .validate ∧ 4 ≤ frameLen s)
      ∨ i ∈ [Instr.ckBuf, .resum, .buildEchoReq, .buildEchoRep, .buildTsReq, .buildTsRep] := by
  cases exec_effect h with
  | clear => exact .inr (.inl rfl)
  | push hp =>
    cases i with
    | ckAdd16 w => exact .inr (.inr (.inl ⟨w, rfl⟩))
    | ckAdd8 b => exact .inr (.inr (.inr (.inl ⟨b, rfl⟩)))
    | _ => exact nomatch hp
  | compare _ h4 => exact .inr (.inr (.inr (.inr (.inl ⟨rfl, h4⟩))))
  | build hb => exact .inr (.inr (.inr (.inr (.inr (List.mem_cons_of_mem _ (List.mem_cons_of_mem _ hb.mem))))))
  | buf | resum => exact .inr (.inr (.inr (.inr (.inr (by simp)))))
  | nop | clrErr | error | final | short | sent | failed => exact .inl (by simp)

/-- The commands that write CSUM (10_state.md R35). -/
theorem exec_csum_writers (h : exec i s = .next t) :
    t.csum = s.csum ∨ (i = .validate ∧ 4 ≤ frameLen s)
      ∨ i ∈ [Instr.ckFinal, .ckBuf, .resum, .buildEchoReq, .buildEchoRep, .buildTsReq, .buildTsRep] := by
  cases exec_effect h with
  | compare _ h4 => exact .inr (.inl ⟨rfl, h4⟩)
  | build hb =>
    exact .inr (.inr (List.mem_cons_of_mem _ (List.mem_cons_of_mem _ (List.mem_cons_of_mem _ hb.mem))))
  | final | buf | resum => exact .inr (.inr (by simp))
  | nop | clrErr | error | clear | push | short | sent | failed => exact .inl (by simp)

/-! ### LEN, FRAME_VALID and FB -/

theorem exec_len (h : exec i s = .next t) (hi : i ∉ [Instr.buildEchoReq, .buildEchoRep, .buildTsReq, .buildTsRep]) :
    t.len = s.len := by
  cases exec_effect h with
  | build hb => exact absurd hb.mem hi
  | resum =>
    obtain ⟨hlen, -⟩ := resummed_sameRest s
    exact hlen
  | nop | clrErr | error | clear | push | final | buf | short | compare | sent | failed => simp

/-- What a command can do to FRAME_VALID (43_frame_control.md R150). -/
theorem exec_frameValid (h : exec i s = .next t) :
    t.frameValid = s.frameValid
      ∨ (i ∈ [Instr.buildEchoReq, .buildEchoRep, .buildTsReq, .buildTsRep, .resum] ∧ t.frameValid = true)
      ∨ (i = .validate ∧ t.frameValid = t.matched) := by
  cases exec_effect h with
  | build hb => exact .inr (.inl ⟨List.mem_append_left [Instr.resum] hb.mem, built_frameValid ..⟩)
  | resum => exact .inr (.inl ⟨by simp, resummed_frameValid s⟩)
  | short | compare => exact .inr (.inr ⟨rfl, rfl⟩)
  | nop | clrErr | error | clear | push | final | buf | sent | failed => exact .inl (by simp)

/-- The bytes of FB a command can write (10_state.md R45). -/
theorem exec_fbByte (h : exec i s = .next t) (k : Nat) :
    fbByte t k = fbByte s k ∨ ((i = .buildEchoReq ∨ i = .buildEchoRep) ∧ k < 8)
      ∨ ((i = .buildTsReq ∨ i = .buildTsRep) ∧ k < 20) ∨ (i = .resum ∧ (k = 2 ∨ k = 3)) := by
  cases exec_effect h with
  | @build i type n body hb hle =>
    by_cases hk : 8 + body.length ≤ k
    · exact .inl (fbByte_built hk)
    · cases hb with
      | echoReq => exact .inr (.inl ⟨.inl rfl, by simpa using hk⟩)
      | echoRep => exact .inr (.inl ⟨.inr rfl, by simpa using hk⟩)
      | tsReq => exact .inr (.inr (.inl ⟨.inl rfl, Nat.lt_of_not_le hk⟩))
      | tsRep => exact .inr (.inr (.inl ⟨.inr rfl, Nat.lt_of_not_le hk⟩))
  | resum =>
    by_cases hk : k = 2 ∨ k = 3
    · exact .inr (.inr (.inr ⟨rfl, hk⟩))
    · exact .inl (fbByte_resummed s (by omega) (by omega))
  | nop | clrErr | error | clear | push | final | buf | short | compare | sent | failed => exact .inl (by simp)

/-- Every command but the builds and RESUM leaves FB as it is. -/
theorem exec_sameFb (h : exec i s = .next t)
    (hi : i ∉ [Instr.buildEchoReq, .buildEchoRep, .buildTsReq, .buildTsRep, .resum]) : SameFb s t := by
  intro k
  rcases exec_fbByte h k with hsame | ⟨rfl | rfl, -⟩ | ⟨rfl | rfl, -⟩ | ⟨rfl, -⟩
  · exact hsame
  all_goals exact absurd hi (by decide)

/-! ### The outside world -/

theorem exec_sameOutside (h : exec i s = .next t) (hi : i ≠ .emit) : SameOutside s t := by
  cases exec_effect h with
  | sent | failed => exact absurd rfl hi
  | build =>
    obtain ⟨-, -, -, houtside⟩ := built_sameRest ..
    exact houtside
  | resum =>
    obtain ⟨-, -, -, -, houtside⟩ := resummed_sameRest s
    exact houtside
  | nop | clrErr | error | clear | push | final | buf | short | compare => simp [SameOutside]

/-- No command writes the host's port (10_state.md R47). -/
theorem exec_host_replies (h : exec i s = .next t) : t.host = s.host ∧ t.replies = s.replies := by
  by_cases hi : i = .emit
  · subst hi
    rcases execEmit_cases h with ⟨-, rfl⟩ | ⟨-, -, rfl⟩ | ⟨-, -, -, rfl⟩ | ⟨-, -, -, rfl⟩ <;> simp
  · obtain ⟨-, -, -, hhost, hreplies⟩ := exec_sameOutside h hi
    exact ⟨hhost, hreplies⟩

/-- OUT grows by an EMIT of a fresh frame alone (43_frame_control.md R152). -/
theorem exec_out (h : exec i s = .next t) :
    t.out = s.out ∨ (i = .emit ∧ s.frameValid = true ∧ frameLen s ≤ frameCap s
      ∧ ∃ a, sinkAnswer s = some a ∧ t.out = s.out ++ [⟨frame s, a⟩]) := by
  by_cases hi : i = .emit
  · subst hi
    rcases execEmit_cases h with ⟨-, rfl⟩ | ⟨-, -, rfl⟩ | ⟨hle, hv, ha, rfl⟩ | ⟨hle, hv, ha, rfl⟩
    · exact .inl rfl
    · exact .inl rfl
    · exact .inr ⟨rfl, hv, hle, _, ha, by simp⟩
    · exact .inr ⟨rfl, hv, hle, _, ha, by simp⟩
  · obtain ⟨hout, -⟩ := exec_sameOutside h hi
    exact .inl hout

/-- What EMIT leaves as it was (43_frame_control.md R152). -/
theorem exec_emit_frame (h : exec .emit s = .next t) : SameFrameStatus s t ∧ SameStream s t := by
  rcases execEmit_cases h with ⟨-, rfl⟩ | ⟨-, -, rfl⟩ | ⟨-, -, -, rfl⟩ | ⟨-, -, -, rfl⟩ <;>
    simp [SameFrameStatus, SameStream]

/-! ### Completion -/

/-- EMIT of a fresh frame that fits, when the sink never answers (70_reset_and_hazards.md R240). -/
def EmitStuck (i : Instr) (s : State) : Prop :=
  i = .emit ∧ frameLen s ≤ frameCap s ∧ s.frameValid = true ∧ sinkAnswer s = none

theorem exec_emit_of_never (hle : frameLen s ≤ frameCap s) (hv : s.frameValid = true) (ha : sinkAnswer s = none) :
    exec .emit s = .fault .sinkNeverAnswers := by
  refine (if_neg (by omega)).trans ((if_neg (by simp [hv])).trans ?_)
  rw [ha]

theorem Builds.exists_next {type : Byte} {n : Nat} {body : List Byte} (h : Builds s i type n body) :
    ∃ t, exec i s = .next t := by
  by_cases hn : n ≤ frameCap s
  · exact ⟨_, h.exec_of_le hn⟩
  · exact ⟨_, h.exec_eq.trans (buildFrame_of_gt (by omega))⟩

/-- A command ends in a next state or is an EMIT that the sink never answers; none is refused
(70_reset_and_hazards.md R240). -/
theorem exec_next_or_stuck (i : Instr) (s : State) :
    (∃ t, exec i s = .next t) ∨ (EmitStuck i s ∧ exec i s = .fault .sinkNeverAnswers) := by
  cases i with
  | nop | ckClear | ckAdd16 | ckAdd8 | ckFinal | clrErr => exact .inl ⟨_, rfl⟩
  | buildEchoReq => exact .inl Builds.echoReq.exists_next
  | buildEchoRep => exact .inl Builds.echoRep.exists_next
  | buildTsReq => exact .inl Builds.tsReq.exists_next
  | buildTsRep => exact .inl Builds.tsRep.exists_next
  | ckBuf =>
    rcases Nat.lt_or_ge (frameCap s) (frameLen s) with hgt | hle
    · exact .inl ⟨_, exec_ckBuf_of_gt hgt⟩
    · exact .inl ⟨_, exec_ckBuf_of_le hle⟩
  | validate =>
    rcases Nat.lt_or_ge (frameCap s) (frameLen s) with hgt | hle
    · exact .inl ⟨_, exec_validate_of_gt hgt⟩
    · rcases Nat.lt_or_ge (frameLen s) 4 with hs | h4
      · exact .inl ⟨_, exec_validate_of_short hle hs⟩
      · exact .inl ⟨_, exec_validate_of_le hle h4⟩
  | resum =>
    rcases Nat.lt_or_ge (frameCap s) (frameLen s) with hgt | hle
    · exact .inl ⟨_, exec_resum_of_gt hgt⟩
    · rcases Nat.lt_or_ge (frameLen s) 4 with hs | h4
      · exact .inl ⟨_, exec_resum_of_short hle hs⟩
      · exact .inl ⟨_, exec_resum_of_le h4 hle⟩
  | emit =>
    rcases Nat.lt_or_ge (frameCap s) (frameLen s) with hgt | hle
    · exact .inl ⟨_, exec_emit_of_gt hgt⟩
    · cases hv : s.frameValid with
      | false => exact .inl ⟨_, exec_emit_of_stale hle hv⟩
      | true =>
        cases ha : sinkAnswer s with
        | none => exact .inr ⟨⟨rfl, hle, hv, ha⟩, exec_emit_of_never hle hv ha⟩
        | some a =>
          cases a with
          | ok => exact .inl ⟨_, exec_emit_of_ok hle hv ha⟩
          | error => exact .inl ⟨_, exec_emit_of_error hle hv ha⟩

end Sys2Proof.Machine
end

section
/-! The family other, frames of the steps: a step that neither resets nor runs a command, said once, and whether a step can stop (20_memory.md R51 to R55, 70_reset_and_hazards.md R240). -/

namespace Sys2Proof.Machine

variable {s t : State} {i : Instr} {e : BusEvent} {rest : List BusEvent}

/-! ### The next event -/

theorem nextEvent_of_host (h : s.host = e :: rest) : NextEvent e s := congrArg List.head? h

theorem nextCommand_of_host {c : Word} (h : s.host = .access (.wr32 (Reg.offset .cmd) c) :: rest)
    (hd : decode c = .instr i) : nextCommand s = some i := by
  simp only [nextCommand, h, if_true, hd]

/-- The reset input as a step (70_reset_and_hazards.md R230). -/
theorem step_reset (h : s.host = .reset :: rest) : step s = .next (resetBlock (setHost rest s)) := by
  simp only [step, performNext, h, performEvent]

theorem step_nil (h : s.host = []) : step s = .next s := by
  simp only [step, performNext, h]

/-- The step that runs a command (30_encoding.md R74). -/
theorem step_instr {c : Word} (h : s.host = .access (.wr32 (Reg.offset .cmd) c) :: rest) (hd : decode c = .instr i) :
    step s = exec i (setHost rest s) := by
  rw [step_command h]
  simp only [command, hd]

/-! ### A step without a command -/

/-- What a step that neither resets nor runs a command can do: it keeps the stream, the verdict and OUT, the error
record takes at most an access's error, and LEN, FRAME_VALID and FB change by the host's own writes only
(20_memory.md R54, R55). -/
structure PortStep (s t : State) : Prop where
  errors : SameErrors s t ∨ ∃ c, (c = .illegalCmd ∨ c = .badAccess) ∧ SameErrors (recordError c s) t
  stream : SameStream s t
  verdict : SameVerdict s t
  out : t.out = s.out
  status : SameFrameStatus s t
    ∨ (t.frameValid = false ∧ ∃ v, NextEvent (.access (.wr32 (Reg.offset .len) v)) s)
    ∨ (t.frameValid = false ∧ ∃ k v, k < frameLen s ∧ k < frameCap s ∧ NextEvent (.access (.wr8 (fbOffset k) v)) s)
  fb : ∀ k, fbByte t k = fbByte s k ∨ (k < frameCap s ∧ ∃ v, NextEvent (.access (.wr8 (fbOffset k) v)) s)

/-- An update that touches neither the stream, the verdict, OUT, LEN, FRAME_VALID nor FB. -/
theorem portStep_of_same
    (herrors : SameErrors s t ∨ ∃ c, (c = .illegalCmd ∨ c = .badAccess) ∧ SameErrors (recordError c s) t)
    (hsame : SameStream s t ∧ SameVerdict s t ∧ t.out = s.out ∧ SameFrameStatus s t ∧ SameFb s t) : PortStep s t := by
  obtain ⟨hstream, hverdict, hout, hstatus, hfb⟩ := hsame
  exact ⟨herrors, hstream, hverdict, hout, .inl hstatus, fun k => .inl (hfb k)⟩

theorem portStep_writeReg {r : Reg} {v : Word} (hr : r ≠ .cmd)
    (hhost : s.host = .access (.wr32 (Reg.offset r) v) :: rest) (h : writeReg r v (setHost rest s) = .next t) :
    PortStep s t := by
  cases r with
  | cmd => exact absurd rfl hr
  | status | acc | csum | pend | cap =>
    obtain rfl := Host.Outcome.next.inj h
    exact portStep_of_same (.inr ⟨.badAccess, .inr rfl, rfl, rfl⟩)
      (by simp [SameStream, SameVerdict, SameFrameStatus, SameFb])
  | ident | seqNum | orig | recv | xmit | plen =>
    obtain rfl := Host.Outcome.next.inj h
    exact portStep_of_same (.inl ⟨rfl, rfl⟩) ⟨⟨rfl, rfl, rfl, rfl⟩, ⟨rfl, rfl, rfl⟩, rfl, ⟨rfl, rfl⟩, fun _ => rfl⟩
  | len =>
    obtain rfl := Host.Outcome.next.inj h
    exact ⟨.inl ⟨rfl, rfl⟩, ⟨rfl, rfl, rfl, rfl⟩, ⟨rfl, rfl, rfl⟩, rfl, .inr (.inl ⟨rfl, v, nextEvent_of_host hhost⟩),
      fun _ => .inl rfl⟩

theorem portStep_writeFb {k : Nat} {v : Byte} (hk : k < frameCap s)
    (hhost : s.host = .access (.wr8 (fbOffset k) v) :: rest) : PortStep s (writeFb k v (setHost rest s)) := by
  have hnext := nextEvent_of_host hhost
  refine ⟨.inl ?errors, ?stream, ?verdict, ?out, ?status, fun j => ?fb⟩
  case fb =>
    rw [fbByte_writeFb]
    by_cases hj : j = k
    · exact .inr ⟨hj ▸ hk, v, hj ▸ hnext⟩
    · exact .inl (by rw [if_neg hj, fbByte_setHost])
  all_goals rw [writeFb_eq]
  case status =>
    by_cases hin : k < frameLen s
    · exact .inr (.inr ⟨if_pos hin, k, v, hin, hk, hnext⟩)
    · exact .inl ⟨rfl, if_neg hin⟩
  all_goals simp [SameErrors, SameStream, SameVerdict]

/-- A step is the reset input, a command, or a `PortStep`. -/
theorem step_command_or_port (h : step s = .next t) :
    (∃ rest, NextEvent .reset s ∧ t = resetBlock (setHost rest s))
      ∨ (∃ i rest, nextCommand s = some i ∧ exec i (setHost rest s) = .next t) ∨ PortStep s t := by
  rcases step_cases h with ⟨-, rfl⟩ | ⟨rest, hreset | hcmd | hreg | hfb | hread | hbadRead | hbad⟩
  · refine .inr (.inr (portStep_of_same (.inl (sameErrors_refl _)) ?_))
    simp [SameStream, SameVerdict, SameFrameStatus, SameFb]
  · obtain ⟨hhost, rfl⟩ := hreset
    exact .inl ⟨rest, nextEvent_of_host hhost, rfl⟩
  · obtain ⟨c, i, hhost, hd, hx⟩ := hcmd
    exact .inr (.inl ⟨i, rest, nextCommand_of_host hhost hd, hx⟩)
  · obtain ⟨r, v, hr, hhost, hw⟩ := hreg
    exact .inr (.inr (portStep_writeReg hr hhost hw))
  · obtain ⟨k, v, hk, hhost, rfl⟩ := hfb
    exact .inr (.inr (portStep_writeFb hk hhost))
  all_goals refine .inr (.inr ?_)
  · obtain ⟨_, r, -, -, -, rfl⟩ := hread
    exact portStep_of_same (.inl ⟨rfl, rfl⟩) (by simp [SameStream, SameVerdict, SameFrameStatus, SameFb])
  · obtain ⟨_, r, -, -, -, rfl⟩ := hbadRead
    exact portStep_of_same (.inr ⟨.badAccess, .inr rfl, rfl, rfl⟩)
      (by simp [SameStream, SameVerdict, SameFrameStatus, SameFb])
  · obtain ⟨_, c, -, -, hc, rfl⟩ := hbad
    exact portStep_of_same (.inr ⟨c, hc, rfl, rfl⟩) (by simp [SameStream, SameVerdict, SameFrameStatus, SameFb])

/-- A step takes the head of the host's list, if there is one (20_memory.md R62). -/
theorem step_host (h : step s = .next t) : t.host = s.host.tail := by
  rcases step_cases h with ⟨hhost, rfl⟩ | ⟨rest, hreset | hcmd | hreg | hfb | hread | hbadRead | hbad⟩
  · rw [hhost, List.tail_nil]
  · obtain ⟨hhost, rfl⟩ := hreset
    simp [hhost]
  · obtain ⟨_, _, hhost, -, hx⟩ := hcmd
    rw [(exec_host_replies hx).1, setHost_host, hhost, List.tail_cons]
  · obtain ⟨r, _, hr, hhost, hw⟩ := hreg
    rw [hhost, List.tail_cons]
    cases r with
    | cmd => exact absurd rfl hr
    | _ => obtain rfl := Host.Outcome.next.inj hw; rfl
  · obtain ⟨_, _, -, hhost, rfl⟩ := hfb
    simp [hhost, writeFb_eq]
  · obtain ⟨_, _, hhost, -, -, rfl⟩ := hread
    simp [hhost]
  · obtain ⟨_, _, hhost, -, -, rfl⟩ := hbadRead
    simp [hhost]
  · obtain ⟨_, _, hhost, -, -, rfl⟩ := hbad
    simp [hhost]

/-! ### Completion of a step -/

theorem writeReg_exists_next {r : Reg} (hr : r ≠ .cmd) (v : Word) (s : State) : ∃ t, writeReg r v s = .next t := by
  cases r with
  | cmd => exact absurd rfl hr
  | _ => exact ⟨_, rfl⟩

/-- A WR32 to any other offset than CMD's completes (20_memory.md R51, R54). -/
theorem hostWrite32_exists_next {off : Word} (hoff : off ≠ Reg.offset .cmd) (v : Word) (s : State) :
    ∃ t, hostWrite32 off v s = .next t := by
  unfold hostWrite32
  split
  case h_1 r hr =>
    refine writeReg_exists_next (fun hc => hoff ?_) v s
    rw [regAt_eq_some hr, hc]
  case h_2 => exact ⟨_, rfl⟩

/-- A step ends in a next state, or it is an EMIT that the sink never answers (70_reset_and_hazards.md R240). -/
theorem step_next_or_stuck (s : State) :
    (∃ t, step s = .next t) ∨ (step s = .fault .sinkNeverAnswers ∧ nextCommand s = some .emit) := by
  cases hhost : s.host with
  | nil => exact .inl ⟨s, step_nil hhost⟩
  | cons e rest =>
    cases e with
    | reset => exact .inl ⟨_, step_reset hhost⟩
    | access a =>
      cases a with
      | rd32 | rd8 | wr8 => exact .inl ⟨_, step_access hhost⟩
      | wr32 off v =>
        by_cases hoff : off = Reg.offset .cmd
        · subst hoff
          cases hd : decode v with
          | illegal r => exact .inl ⟨_, (step_command hhost).trans (command_of_illegal ⟨r, hd⟩ _)⟩
          | instr i =>
            rw [step_instr hhost hd, nextCommand_of_host hhost hd]
            refine (exec_next_or_stuck i _).imp id fun hstuck => ?_
            obtain ⟨⟨rfl, -⟩, hfault⟩ := hstuck
            exact ⟨hfault, rfl⟩
        · rw [step_access hhost]
          exact .inl (hostWrite32_exists_next hoff v _)

end Sys2Proof.Machine
end

section
/-! The obligations of the family other about what commands and steps write. -/

open Sys2Proof Sys2Proof.Machine

/-- Settles O6: `step_instr`. -/
theorem stepRunsDecodedCommand : Obligations.StepRunsDecodedCommand :=
  fun _ _ _ _ hhost hd => step_instr hhost hd

/-- Settles O7: `performNext` without an event. -/
theorem stepWithoutEventHoldsState : Obligations.StepWithoutEventHoldsState := fun _ h => step_nil h

/-- Settles O9: the offsets and the reads by evaluation, a narrow register zero-extended, CAP within its bounds. -/
theorem registerReadValues : Obligations.RegisterReadValues := by
  refine ⟨by decide, fun s => ?_⟩
  have hextend {w : Nat} (v : BitVec w) (hw : w ≤ 32) : (v.setWidth 32).toNat = v.toNat :=
    BitVec.toNat_setWidth_of_le hw
  exact ⟨rfl, rfl, rfl, hextend _ (by decide), hextend _ (by decide), hextend _ (by decide), hextend _ (by decide), rfl,
    rfl, rfl, hextend _ (by decide), hextend _ (by decide), readReg_cap_toNat s, twenty_le_frameCap s, frameCap_le s⟩

/-- Settles O15: `recordError` on both values of ERR. -/
theorem raiseErrorKeepsFirstCode : Obligations.RaiseErrorKeepsFirstCode := by
  intro c s
  refine ⟨fun herr => ?_, fun herr => ?_⟩
  · simp [raiseError, recordError, herr]
  · simp only [raiseError, recordError, herr, if_true]
    rw [← herr]

/-- Settles O16: of everything a command does to the error record, two ways set ERR. -/
theorem erringCommandHasNoOtherEffect : Obligations.ErringCommandHasNoOtherEffect := by
  intro i s t h herr ht
  rcases exec_errors h with ⟨hsame, -⟩ | ⟨-, rfl⟩ | ⟨c, -, rfl⟩ | hfailed
  · exact nomatch herr.symm.trans (hsame.symm.trans ht)
  · exact nomatch ht
  · exact .inl (by rw [recordError_errCode, herr]; rfl)
  · exact .inr hfailed

/-- Settles O17: a command keeps the record unless it is CLR_ERR, and an access keeps the first code. -/
theorem errorRecordClearedOnlyByClrErrOrReset : Obligations.ErrorRecordClearedOnlyByClrErrOrReset := by
  intro s t h herr hreset hclr
  rcases step_command_or_port h with ⟨_, hnext, -⟩ | ⟨i, rest, hcmd, hx⟩ | hport
  · exact absurd hnext hreset
  · exact (exec_errors_of_err hx herr fun hi => hclr (hi ▸ hcmd) :)
  · rcases hport.errors with ⟨hsame, hcode⟩ | ⟨c, -, hset, hcode⟩
    · exact ⟨hsame.trans herr, hcode⟩
    · exact ⟨hset, hcode.trans (if_pos herr)⟩

/-- Settles O18: one lemma per outcome, and FRAME_SHORT by `exec_frameShort`. -/
theorem overflowPrecedesOtherErrors : Obligations.OverflowPrecedesOtherErrors := by
  refine ⟨fun s => ⟨fun hgt => ?overflow, exec_resum_of_short, exec_emit_of_stale, fun hgt => ?echo⟩,
    fun i s t hi h => exec_frameShort h hi, fun s t h hresum hcode => ?step⟩
  case overflow =>
    simp only [List.mem_cons, List.not_mem_nil, or_false, forall_eq_or_imp, forall_eq]
    exact ⟨exec_ckBuf_of_gt hgt, exec_validate_of_gt hgt, exec_resum_of_gt hgt, exec_emit_of_gt hgt⟩
  case echo =>
    simp only [List.mem_cons, List.not_mem_nil, or_false, forall_eq_or_imp, forall_eq]
    exact ⟨buildFrame_of_gt hgt, buildFrame_of_gt hgt⟩
  case step =>
    rcases step_command_or_port h with ⟨_, -, rfl⟩ | ⟨i, rest, hcmd, hx⟩ | hport
    · exact nomatch hcode
    · exact (exec_frameShort hx (fun hi => hresum (hi ▸ hcmd)) hcode :)
    · rcases hport.errors with ⟨-, hsame⟩ | ⟨c, hc, -, hsame⟩
      · exact hsame.symm.trans hcode
      · rw [hsame, recordError_errCode] at hcode
        by_cases herr : s.err = true
        · rwa [if_pos herr] at hcode
        · rw [if_neg herr] at hcode
          rcases hc with rfl | rfl <;> exact nomatch hcode

/-- Settles O19: the step is `resetBlock`. -/
theorem resetWritesEveryRegister : Obligations.ResetWritesEveryRegister := by
  refine ⟨fun s rest hhost => ⟨_, step_reset hhost, ?_, ?_⟩, ⟨rfl, ?_⟩⟩
  · change statusWord State.reset = 0
    rfl
  · simp
  · simp [State.reset]

/-- Settles O41: `exec_next_or_stuck`, whose two outcomes exclude each other. -/
theorem emitIsStuckWhenSinkNeverAnswers : Obligations.EmitIsStuckWhenSinkNeverAnswers := by
  intro i s
  constructor
  · rintro ⟨f, hf⟩
    rcases exec_next_or_stuck i s with ⟨t, ht⟩ | ⟨hstuck, -⟩
    · exact nomatch hf.symm.trans ht
    · exact hstuck
  · rintro ⟨rfl, hle, hv, ha⟩
    exact ⟨_, exec_emit_of_never hle hv ha⟩

/-- Settles O42: `exec_next_or_stuck` and `step_next_or_stuck`. -/
theorem everyCommandButEmitCompletes : Obligations.EveryCommandButEmitCompletes := by
  refine ⟨fun i s hi => ?_, fun s a ha => ?_, step_next_or_stuck⟩
  · exact (exec_next_or_stuck i s).resolve_right fun ⟨⟨hemit, _⟩, _⟩ => hi hemit
  · refine (exec_next_or_stuck .emit s).resolve_right fun ⟨⟨_, _, _, hnever⟩, _⟩ => ?_
    exact nomatch ha.symm.trans hnever

/-- Settles O50: a command changes FRAME_VALID as `exec_frameValid` says, an access as `PortStep` does. -/
theorem freshnessTransitions : Obligations.FreshnessTransitions := by
  intro s t h
  have hunchanged {p q : Prop} (hsame : t.frameValid = s.frameValid) :
      (s.frameValid = false → t.frameValid = true → p) ∧ (s.frameValid = true → t.frameValid = false → q) := by
    rw [hsame]
    exact ⟨fun hs ht => (nomatch hs.symm.trans ht), fun hs ht => (nomatch hs.symm.trans ht)⟩
  rcases step_command_or_port h with ⟨_, hnext, rfl⟩ | ⟨i, rest, hcmd, hx⟩ | hport
  · exact ⟨nofun, fun _ _ => .inl hnext⟩
  · rcases exec_frameValid hx with hsame | ⟨hi, hfresh⟩ | ⟨rfl, hmatch⟩
    · exact hunchanged hsame
    · exact ⟨fun _ _ => .inl ⟨i, hi, hcmd⟩, fun _ ht => (nomatch hfresh.symm.trans ht)⟩
    · exact ⟨fun _ ht => .inr ⟨hcmd, hmatch.symm.trans ht⟩,
        fun _ ht => .inr (.inr (.inr ⟨hcmd, hmatch.symm.trans ht⟩))⟩
  · rcases hport.status with ⟨-, hsame⟩ | ⟨hstale, hlen⟩ | ⟨hstale, k, v, hk, -, hnext⟩
    · exact hunchanged hsame
    · exact ⟨fun _ ht => (nomatch hstale.symm.trans ht), fun _ _ => .inr (.inl hlen)⟩
    · exact ⟨fun _ ht => (nomatch hstale.symm.trans ht), fun _ _ => .inr (.inr (.inl ⟨k, v, hk, hnext⟩))⟩

/-- Settles O51: only EMIT writes OUT. -/
theorem outGrowsOnlyByEmitOfFreshFrame : Obligations.OutGrowsOnlyByEmitOfFreshFrame := by
  intro s t h
  rcases step_command_or_port h with ⟨_, -, rfl⟩ | ⟨i, rest, hcmd, hx⟩ | hport
  · exact .inl rfl
  · rcases exec_out hx with hsame | ⟨rfl, hemit⟩
    · exact .inl hsame
    · exact .inr ⟨hcmd, hemit⟩
  · exact .inl hport.out

/-- Settles O52: only VALIDATE writes the verdict, and it sets VDONE. -/
theorem verdictWrittenOnlyByValidate : Obligations.VerdictWrittenOnlyByValidate := by
  intro s t h hreset
  rcases step_command_or_port h with ⟨_, hnext, -⟩ | ⟨i, rest, hcmd, hx⟩ | hport
  · exact absurd hnext hreset
  · exact ⟨fun hne => (exec_sameVerdict hx fun hi => hne (hi ▸ hcmd) :), (exec_vdone hx :)⟩
  · exact ⟨fun _ => hport.verdict, fun hv => hport.verdict.1.trans hv⟩

/-- Settles O53: the writers of the stream and of CSUM among the commands. -/
theorem streamWritersOnly : Obligations.StreamWritersOnly := by
  intro s t h hreset
  rcases step_command_or_port h with ⟨_, hnext, -⟩ | ⟨i, rest, hcmd, hx⟩ | hport
  · exact absurd hnext hreset
  · rw [hcmd]
    refine ⟨fun hne => ?stream, fun hne => ?csum⟩
    case stream =>
      rcases exec_stream_writers hx with ⟨hacc, hodd, hpend⟩ | rfl | ⟨w, rfl⟩ | ⟨b, rfl⟩ | ⟨rfl, h4⟩ | hi
      · rcases hne with hne | hne | hne
        · exact absurd hacc hne
        · exact absurd hodd hne
        · exact absurd hpend hne
      · exact .inl rfl
      · exact .inr (.inl ⟨w, rfl⟩)
      · exact .inr (.inr (.inl ⟨b, rfl⟩))
      · exact .inr (.inr (.inr (.inl ⟨rfl, h4⟩)))
      · exact .inr (.inr (.inr (.inr ⟨i, hi, rfl⟩)))
    case csum =>
      rcases exec_csum_writers hx with hsame | ⟨rfl, h4⟩ | hi
      · exact absurd hsame hne
      · exact .inl ⟨rfl, h4⟩
      · exact .inr ⟨i, hi, rfl⟩
  · obtain ⟨hacc, hodd, hpend, hcsum⟩ := hport.stream
    refine ⟨fun hne => ?_, fun hne => absurd hcsum hne⟩
    rcases hne with hne | hne | hne
    · exact absurd hacc hne
    · exact absurd hodd hne
    · exact absurd hpend hne

/-- Settles O54: one lemma per group of fields. -/
theorem commandsKeepParametersAndEnvironment : Obligations.CommandsKeepParametersAndEnvironment := by
  intro i s t h
  obtain ⟨hhost, hreplies⟩ := exec_host_replies h
  refine ⟨exec_sameParameters h, hhost, hreplies, exec_len h, fun hi => ?_⟩
  obtain ⟨hout, hsink, hdraws, -⟩ := exec_sameOutside h hi
  exact ⟨hout, hsink, hdraws⟩

/-- Settles O55: a command writes FB as `exec_fbByte` says, an access by a WR8 to the byte. -/
theorem fbWrittenOnlyWhereStated : Obligations.FbWrittenOnlyWhereStated := by
  intro s t k h hreset hne
  rcases step_command_or_port h with ⟨_, hnext, -⟩ | ⟨i, rest, hcmd, hx⟩ | hport
  · exact absurd hnext hreset
  · rw [hcmd]
    simp only [Option.some.injEq]
    exact .inr ((exec_fbByte hx k).resolve_left hne)
  · obtain ⟨-, hwrite⟩ := (hport.fb k).resolve_left hne
    exact .inl hwrite

/-- Settles O57: the three pushes write the stream alone, and CK_FINAL writes CSUM alone. -/
theorem streamCommandsFrame : Obligations.StreamCommandsFrame := by
  intro s t
  refine ⟨?push, fun h => ?final⟩
  case push =>
    rintro ⟨i, hi, h⟩
    obtain ⟨u, rfl⟩ : ∃ u, t = setStream u s := by
      rcases hi with rfl | ⟨w, rfl⟩ | ⟨b, rfl⟩ <;> exact ⟨_, (Host.Outcome.next.inj h).symm⟩
    simp [SameErrors, SameVerdict, SameFrameStatus, SameParameters, SameFb, SameOutside]
  case final =>
    obtain rfl := Host.Outcome.next.inj h
    simp [stream, SameErrors, SameVerdict, SameFrameStatus, SameParameters, SameFb, SameOutside]

/-- Settles O58: none of the three is among the writers of the fields named. -/
theorem frameReadersFrame : Obligations.FrameReadersFrame := by
  intro s t
  refine ⟨fun h => ?buf, fun h => ?validate, fun h => ?emit⟩
  case buf =>
    have hvalid : t.frameValid = s.frameValid :=
      (exec_frameValid h).resolve_right (by simp)
    exact ⟨exec_sameFb h (by decide), exec_sameParameters h, ⟨exec_len h (by decide), hvalid⟩,
      exec_sameVerdict h (by decide), exec_sameOutside h (by decide), exec_sameErrors_of_le h (.inl rfl)⟩
  case validate =>
    exact ⟨exec_sameFb h (by decide), exec_sameParameters h, exec_len h (by decide), exec_sameOutside h (by decide),
      exec_sameErrors_of_le h (.inr rfl)⟩
  case emit =>
    obtain ⟨hstatus, hstream⟩ := exec_emit_frame h
    obtain ⟨hhost, hreplies⟩ := exec_host_replies h
    exact ⟨exec_sameFb h (by decide), exec_sameParameters h, hstatus, hstream, exec_sameVerdict h (by decide), hhost,
      hreplies⟩

/-- Settles O59: none of the five is among the writers of the fields named, and `exec_fbByte` gives their bytes. -/
theorem frameWritersFrame : Obligations.FrameWritersFrame := by
  intro i n0 n1 s t hi h
  have hne : i ≠ .validate ∧ i ≠ .emit := by
    constructor <;> rintro rfl <;> simp at hi
  refine ⟨exec_sameParameters h, exec_sameVerdict h hne.1, exec_sameOutside h hne.2, exec_sameErrors_of_seal h,
    fun k hk => ?_⟩
  rcases exec_fbByte h k with hsame | ⟨rfl | rfl, hlt⟩ | ⟨rfl | rfl, hlt⟩ | ⟨rfl, hin⟩
  · exact hsame
  all_goals
    simp only [List.mem_cons, List.not_mem_nil, Prod.mk.injEq, reduceCtorEq, false_and, true_and, false_or, or_false]
      at hi
    omega

end

section
/-! The family other, checksums: the words of a byte sequence, the total as a function of their sum, and the sum when a byte changes or zeros are appended (40_checksum.md R100 to R105, R113 (b)). -/

namespace Sys2Proof.Machine

/-! ### The words of a byte sequence -/

theorem words_length (bs : List Byte) : (words bs).length = (bs.length + 1) / 2 := by
  induction bs using words.induct with
  | case1 => rfl
  | case2 b => simp [words]
  | case3 b c rest ih =>
    simp only [words, List.length_cons, ih]
    omega

/-- Word i is made of the bytes 2i and 2i + 1, a byte past the end being 0 (40_checksum.md R100). -/
theorem words_getElem? (bs : List Byte) {i : Nat} (h : i < (words bs).length) :
    (words bs)[i]? = some (bs.getD (2 * i) 0 ++ bs.getD (2 * i + 1) 0) := by
  induction bs using words.induct generalizing i with
  | case1 => exact absurd h (Nat.not_lt_zero _)
  | case2 b =>
    obtain rfl : i = 0 := Nat.lt_one_iff.1 h
    rfl
  | case3 b c rest ih =>
    cases i with
    | zero => rfl
    | succ i =>
      rw [words, List.getElem?_cons_succ, ih (Nat.lt_of_succ_lt_succ h)]
      rfl

/-! ### The total depends on the sum alone -/

/-- The total is the one representative in 1 to 0xFFFFFFFF of a sum that is not 0 (40_checksum.md R105 (a)). -/
theorem total_congr {ws vs : List Half} (h : wordSum ws = wordSum vs) : total ws = total vs := by
  have hzero : (total ws).toNat = 0 ↔ (total vs).toNat = 0 := by rw [total_eq_zero, total_eq_zero, h]
  have hmod : (total ws).toNat % 0xFFFFFFFF = (total vs).toNat % 0xFFFFFFFF := by rw [total_mod, total_mod, h]
  have hws := (total ws).isLt
  have hvs := (total vs).isLt
  exact BitVec.eq_of_toNat_eq (by omega)

theorem wordSum_perm {ws vs : List Half} (h : ws.Perm vs) : wordSum ws = wordSum vs := (h.map _).sum_eq

theorem wordSum_eq_zero_iff {ws : List Half} : wordSum ws = 0 ↔ ∀ w ∈ ws, w = 0 := by
  simp [wordSum, List.sum_eq_zero_iff, ← BitVec.toNat_inj]

theorem total_eq_zero_iff {ws : List Half} : total ws = 0 ↔ wordSum ws = 0 := by
  rw [← total_eq_zero, ← BitVec.toNat_inj]
  rfl

theorem csum_congr {bs cs : List Byte} (h : wordSum (words bs) = wordSum (words cs)) : csum bs = csum cs := by
  rw [csum, csum, total_congr h]

/-! ### The checksum of zeros -/

theorem halfOfBytes_toNat (hi lo : Byte) : (halfOfBytes hi lo).toNat = 256 * hi.toNat + lo.toNat := by
  rw [halfOfBytes, BitVec.toNat_append, ← Nat.shiftLeft_add_eq_or_of_lt lo.isLt, Nat.shiftLeft_eq]
  omega

theorem wordSum_words_eq_zero_iff {bs : List Byte} : wordSum (words bs) = 0 ↔ ∀ b ∈ bs, b = 0 := by
  refine ⟨fun h => ?_, wordSum_words_eq_zero⟩
  induction bs using words.induct with
  | case1 => exact nofun
  | case2 b =>
    rw [words, wordSum_cons, halfOfBytes_toNat] at h
    have hb : b = 0 := BitVec.eq_of_toNat_eq (by simp; omega)
    simpa using hb
  | case3 b c rest ih =>
    rw [words, wordSum_cons, halfOfBytes_toNat] at h
    have hb : b = 0 := BitVec.eq_of_toNat_eq (by simp; omega)
    have hc : c = 0 := BitVec.eq_of_toNat_eq (by simp; omega)
    have hrest := ih (by omega)
    simpa [hb, hc] using hrest

/-- Only zeros have the checksum 0xFFFF (40_checksum.md R105 (b)). -/
theorem csum_eq_allOnes_iff {bs : List Byte} : csum bs = 0xFFFF ↔ ∀ b ∈ bs, b = 0 := by
  have hfold (f : Half) : 0xFFFF - f = 0xFFFF ↔ f.toNat = 0 := by bv_omega
  rw [csum, hfold, fold16_eq_zero, total_eq_zero, wordSum_words_eq_zero_iff]

/-- An appended zero fills the pad of an odd sequence or is a word of its own (40_checksum.md R105 (d)). -/
theorem wordSum_words_append_zero (bs : List Byte) : wordSum (words (bs ++ [0])) = wordSum (words bs) := by
  induction bs using words.induct with
  | case1 => rfl
  | case2 b => rfl
  | case3 b c rest ih =>
    simp only [List.cons_append, words, wordSum_cons, ih]

theorem csum_append_zero (bs : List Byte) : csum (bs ++ [0]) = csum bs := csum_congr (wordSum_words_append_zero bs)

/-! ### The checksum when one byte changes -/

/-- What byte k counts in its word (40_checksum.md R100). -/
def byteWeight (k : Nat) : Nat := if k % 2 = 0 then 256 else 1

theorem byteWeight_zero : byteWeight 0 = 256 := rfl
theorem byteWeight_one : byteWeight 1 = 1 := rfl
theorem byteWeight_add_two (k : Nat) : byteWeight (k + 2) = byteWeight k := by simp [byteWeight]

/-- A changed byte changes the sum by its weighted difference. -/
theorem wordSum_words_set {bs : List Byte} {k : Nat} (hk : k < bs.length) (v : Byte) :
    wordSum (words (bs.set k v)) + byteWeight k * bs[k].toNat = wordSum (words bs) + byteWeight k * v.toNat := by
  induction bs using words.induct generalizing k with
  | case1 => exact absurd hk (Nat.not_lt_zero k)
  | case2 b =>
    obtain rfl : k = 0 := Nat.lt_one_iff.1 hk
    simp only [List.set_cons_zero, words, wordSum_cons, halfOfBytes_toNat, byteWeight_zero, List.getElem_cons_zero]
    omega
  | case3 b c rest ih =>
    match k with
    | 0 =>
      simp only [List.set_cons_zero, words, wordSum_cons, halfOfBytes_toNat, byteWeight_zero, List.getElem_cons_zero]
      omega
    | 1 =>
      simp only [List.set_cons_succ, List.set_cons_zero, words, wordSum_cons, halfOfBytes_toNat, byteWeight_one,
        List.getElem_cons_succ, List.getElem_cons_zero]
      omega
    | k + 2 =>
      have hrest := ih (k := k) (Nat.lt_of_add_lt_add_right hk)
      simp only [List.set_cons_succ, words, wordSum_cons, byteWeight_add_two, List.getElem_cons_succ]
      omega

/-- The checksum determines the sum modulo 0xFFFF (40_checksum.md R102, R104). -/
theorem wordSum_mod_of_csum_eq {bs cs : List Byte} (h : csum bs = csum cs) :
    wordSum (words bs) % 0xFFFF = wordSum (words cs) % 0xFFFF := by
  have hfold : fold16 (total (words bs)) = fold16 (total (words cs)) := by
    unfold csum at h
    bv_omega
  have hbs := fold16_mod (total (words bs))
  have hcs := fold16_mod (total (words cs))
  have htotal := total_mod (words bs)
  have htotal' := total_mod (words cs)
  rw [hfold] at hbs
  omega

/-- One changed byte changes the checksum: its weighted difference is no multiple of 0xFFFF
(40_checksum.md R113 (b)). -/
theorem csum_set_ne {bs : List Byte} {k : Nat} (hk : k < bs.length) {v : Byte} (hv : v ≠ bs[k]) :
    csum (bs.set k v) ≠ csum bs := by
  intro h
  have hmod := wordSum_mod_of_csum_eq h
  have hset := wordSum_words_set hk v
  have hold := bs[k].isLt
  have hnew := v.isLt
  have hne : v.toNat ≠ bs[k].toNat := fun hh => hv (BitVec.eq_of_toNat_eq hh)
  unfold byteWeight at hset
  split at hset <;> omega

/-- A byte outside the checksum field is changed in the zeroed view as well. -/
theorem zeroField_set (bs : List Byte) {k : Nat} (h2 : k ≠ 2) (h3 : k ≠ 3) (v : Byte) :
    zeroField (bs.set k v) = (zeroField bs).set k v := by
  rw [zeroField, zeroField, List.set_comm _ _ h3.symm, List.set_comm _ _ h2.symm]

theorem storedField_set (bs : List Byte) {k : Nat} (h2 : k ≠ 2) (h3 : k ≠ 3) (v : Byte) :
    storedField (bs.set k v) = storedField bs := by
  simp [storedField, h2, h3]

/-- A valid packet with one byte changed outside its checksum field is none (40_checksum.md R113 (b)). -/
theorem csum_zeroField_set_ne {bs : List Byte} (hvalid : ValidPacket bs) {k : Nat} (hk : k < bs.length) (h2 : k ≠ 2)
    (h3 : k ≠ 3) {v : Byte} (hv : v ≠ bs[k]) : csum (zeroField (bs.set k v)) ≠ storedField (bs.set k v) := by
  rw [zeroField_set bs h2 h3, storedField_set bs h2 h3, hvalid.2]
  refine csum_set_ne (by rwa [zeroField_length]) ?_
  simpa [zeroField, h2.symm, h3.symm] using hv

/-! ### Four-byte fields -/

theorem bytes32_append (v : Word) :
    v.extractLsb' 24 8 ++ v.extractLsb' 16 8 ++ v.extractLsb' 8 8 ++ v.extractLsb' 0 8 = v := by
  rw [BitVec.extractLsb'_append_extractLsb'_eq_extractLsb' (by decide),
    BitVec.extractLsb'_append_extractLsb'_eq_extractLsb' (by decide),
    BitVec.extractLsb'_append_extractLsb'_eq_extractLsb' (by decide)]
  exact BitVec.extractLsb'_eq_self

end Sys2Proof.Machine
end

section
/-! The obligations of the family other about the checksum's arithmetic and the fields of FB. -/

open Sys2Proof Sys2Proof.Machine

/-- Settles O20: an induction over pairs of bytes. -/
theorem wordsPartitionBigEndian : Obligations.WordsPartitionBigEndian :=
  fun bs => ⟨words_length bs, fun _ => words_getElem? bs⟩

/-- Settles O25: the total is a function of the sum, which no appended zero changes. -/
theorem checksumLaws : Obligations.ChecksumLaws := by
  refine ⟨fun ws vs h => total_congr (wordSum_perm h), fun ws hne => ⟨?pos, total_mod ws⟩,
    fun ws => total_eq_zero_iff.trans wordSum_eq_zero_iff, fun bs => csum_eq_allOnes_iff, fun bs hzero => ?nonzero,
    fun bs _ => csum_append_zero bs, fun bs => ?two⟩
  case pos => exact Nat.one_le_iff_ne_zero.2 ((total_eq_zero ws).not.2 hne)
  case nonzero =>
    by_contra hall
    have hones : csum bs = 0xFFFF := csum_eq_allOnes_iff.2 (by simpa using hall)
    exact absurd (hzero.symm.trans hones) (by decide)
  case two =>
    have happend : bs ++ [0, 0] = bs ++ [0] ++ [0] := (List.append_assoc bs [0] [0]).symm
    rw [happend, csum_append_zero, csum_append_zero]

/-- Settles O46: the stored bytes are read back one by one and put together again. -/
theorem memReadAfterMemWrite : Obligations.MemReadAfterMemWrite := by
  intro s k
  refine ⟨fun v => ⟨?read16, ?high16⟩, fun v => ⟨?read32, ?high32⟩, fun bs j hj => ?outside⟩
  case outside => rw [fbByte_fbStore, if_neg hj]
  all_goals simp only [memRead16, memRead32, fbByte_fbStore, bytes16, bytes32]
  case read16 => simp [halfOfBytes_bytes16]
  case read32 => simpa using bytes32_append v
  all_goals simp

end

section
/-! The family other, runs: a sealed or a corrupted frame before VALIDATE, the bytes a build leaves, and the frame between two EMITs (40_checksum.md R113, 41_echo.md R127, 43_frame_control.md R153). -/

namespace Sys2Proof.Machine

variable {s t u : State} {i : Instr} {type : Byte} {n : Nat} {body : List Byte}

/-! ### VALIDATE of a frame -/

/-- VALIDATE in the terms of valid packets (40_checksum.md R111). -/
theorem exec_validate_eq (hle : frameLen s ≤ frameCap s) (h4 : 4 ≤ frameLen s) :
    exec .validate s = .next (setVerdict (decide (csum (zeroField (frame s)) = storedField (frame s))) false
      (sumBytes (zeroField (frame s)) s)) := by
  rw [exec_validate_of_le hle h4, zeroedView_eq, frame, storedField_fbBytes s _ h4]
  rfl

/-- VALIDATE of a valid packet matches (40_checksum.md R113 (a)). -/
theorem exec_validate_of_validPacket (hle : frameLen s ≤ frameCap s) (hvalid : ValidPacket (frame s)) :
    exec .validate s = .next (setVerdict true false (sumBytes (zeroField (frame s)) s)) := by
  obtain ⟨h4, hstored⟩ := hvalid
  rw [exec_validate_eq hle (frame_length s ▸ h4), hstored, decide_eq_true rfl]

/-! ### A sealed frame -/

/-- What the shared procedure of BUILD and RESUM makes of n bytes with a zero field fits and is a valid packet
(40_checksum.md R113 (a)). -/
theorem validPacket_frame_sumAndPatch (h4 : 4 ≤ n) (hle : n ≤ frameCap s) (hlen : frameLen s = n)
    (hzero : ∀ k, k = 2 ∨ k = 3 → fbByte s k = 0) :
    frameLen (sumAndPatch n s) ≤ frameCap (sumAndPatch n s) ∧ ValidPacket (frame (sumAndPatch n s)) := by
  have hlen' : frameLen (sumAndPatch n s) = n := (frameLen_congr (sumAndPatch_len n s)).trans hlen
  rw [frame, hlen', frameCap_congr (sumAndPatch_cap n s)]
  exact ⟨hle, validPacket_sumAndPatch n s h4 (hzero 2 (.inl rfl)) (hzero 3 (.inr rfl))⟩

theorem exists_builds_of_sealSucceeds (h : SealSucceeds i s) (hi : i ≠ .resum) :
    ∃ type n body, Builds s i type n body := by
  cases i with
  | buildEchoReq => exact ⟨_, _, _, .echoReq⟩
  | buildEchoRep => exact ⟨_, _, _, .echoRep⟩
  | buildTsReq => exact ⟨_, _, _, .tsReq⟩
  | buildTsRep => exact ⟨_, _, _, .tsRep⟩
  | resum => exact absurd rfl hi
  | _ => exact h.elim

/-- A command that succeeds in sealing the frame leaves a valid packet that fits (40_checksum.md R113 (a)). -/
theorem exists_next_validPacket (h : SealSucceeds i s) :
    ∃ t, exec i s = .next t ∧ frameLen t ≤ frameCap t ∧ ValidPacket (frame t) := by
  by_cases hi : i = .resum
  · subst hi
    obtain ⟨h4, hle⟩ := h
    exact ⟨_, exec_resum_of_le h4 hle, validPacket_frame_sumAndPatch h4 hle rfl fun k hk => fbByte_zeroStore_field hk s⟩
  · obtain ⟨type, n, body, hb⟩ := exists_builds_of_sealSucceeds h hi
    have hle := hb.sealSucceeds h
    have hstored := hb.stored_le
    exact ⟨_, hb.exec_of_le hle, validPacket_frame_sumAndPatch (by omega) hle (frameLen_stored hle)
      fun k hk => fbByte_built_field hk type n body s⟩

/-! ### A corrupted frame -/

theorem frameLen_writeFb (k : Nat) (v : Byte) (s : State) : frameLen (writeFb k v s) = frameLen s := by
  rw [writeFb_eq]
  rfl

/-- A byte written inside the frame is set in it (20_memory.md R55). -/
theorem frame_writeFb (k : Nat) (v : Byte) (s : State) : frame (writeFb k v s) = (frame s).set k v := by
  refine List.ext_getElem ?_ fun j hj _ => ?_
  · rw [List.length_set, frame_length, frame_length, frameLen_writeFb]
  · simp only [frame, fbBytes, List.getElem_set, List.getElem_map, List.getElem_range, fbByte_writeFb, Nat.zero_add]
    by_cases hkj : k = j
    · rw [if_pos hkj, if_pos hkj.symm]
    · rw [if_neg hkj, if_neg (Ne.symm hkj)]

theorem frame_getElem {k : Nat} (hk : k < (frame s).length) : (frame s)[k] = fbByte s k := by
  simp [frame, fbBytes]

/-- A byte write as a step, in the terms of the frame (20_memory.md R55). -/
theorem exists_step_wr8 {k : Nat} {v : Byte} {rest : List BusEvent} (hk : k < frameCap s)
    (h : s.host = .access (.wr8 (fbOffset k) v) :: rest) : ∃ u, step s = .next u ∧ u.host = rest
      ∧ frameLen u = frameLen s ∧ frameCap u = frameCap s ∧ frame u = (frame s).set k v ∧ SameErrors s u := by
  refine ⟨_, step_wr8 hk h, ?_, frameLen_writeFb k v _, frameCap_congr (writeFb_cap k v _), frame_writeFb k v _, ?_⟩
  all_goals rw [writeFb_eq]
  · rfl
  · exact ⟨rfl, rfl⟩

/-! ### The bytes a build leaves -/

theorem Builds.exists_builtFrom (hb : Builds s i type n body) (hs : SealSucceeds i s) (h : exec i s = .next t) :
    ∃ payload, BuiltFrom type payload s t := by
  cases hb with
  | echoReq | echoRep =>
    obtain ⟨u, hu, hfrom⟩ := exists_builtFrom_echo _ hs
    exact ⟨_, Host.Outcome.next.inj (hu.symm.trans h) ▸ hfrom⟩
  | tsReq | tsRep =>
    obtain ⟨u, hu, hfrom, -⟩ := exists_builtFrom_timestamp _ s
    exact ⟨_, Host.Outcome.next.inj (hu.symm.trans h) ▸ hfrom⟩

/-- The type, the code, ID and SEQ of a built message (41_echo.md R120, R127). -/
theorem BuiltFrom.head (h : BuiltFrom type body s t) : fbByte t 0 = type ∧ fbByte t 1 = 0
    ∧ fbByte t 4 ++ fbByte t 5 = s.ident ∧ fbByte t 6 ++ fbByte t 7 = s.seqNum := by
  have hbyte {k : Nat} (hk : k < 8) : fbByte t k =
      ([type, 0] ++ bytes16 t.csum ++ bytes16 s.ident ++ bytes16 s.seqNum ++ body).getD k 0 := by
    rw [← h.bytes, fbBytes_getD _ _ _ _ (by omega), Nat.zero_add]
  rw [hbyte (k := 0) (by decide), hbyte (k := 1) (by decide), hbyte (k := 4) (by decide), hbyte (k := 5) (by decide),
    hbyte (k := 6) (by decide), hbyte (k := 7) (by decide)]
  exact ⟨rfl, rfl, halfOfBytes_bytes16 s.ident, halfOfBytes_bytes16 s.seqNum⟩

/-! ### The answers of the sink -/

/-- The answer depends on what is settled and on the draws made (log entry 4). -/
theorem sinkAnswer_congr (h : t.sink = s.sink) (hd : t.sinkDraws = s.sinkDraws) : sinkAnswer t = sinkAnswer s := by
  rw [sinkAnswer, sinkAnswer, h, hd]

theorem consumeSink_congr (h : t.sink = s.sink) (hd : t.sinkDraws = s.sinkDraws) :
    (consumeSink t).sink = (consumeSink s).sink ∧ (consumeSink t).sinkDraws = (consumeSink s).sinkDraws := by
  unfold consumeSink
  rw [h]
  split
  · exact ⟨rfl, congrArg (· + 1) hd⟩
  · exact ⟨rfl, hd⟩

/-- EMIT with an answer hands over the frame and uses the answer up (43_frame_control.md R152). -/
theorem exists_emit_of_answer {a : SinkAnswer} (hle : frameLen s ≤ frameCap s) (hv : s.frameValid = true)
    (ha : sinkAnswer s = some a) : ∃ t, exec .emit s = .next t ∧ t.out = s.out ++ [⟨frame s, a⟩]
      ∧ t.sink = (consumeSink s).sink ∧ t.sinkDraws = (consumeSink s).sinkDraws := by
  cases a with
  | ok => exact ⟨_, exec_emit_of_ok hle hv ha, by simp⟩
  | error => exact ⟨_, exec_emit_of_error hle hv ha, by simp⟩

/-! ### What leaves a fresh frame as it is -/

theorem SameFrameStatus.trans (h : SameFrameStatus s t) (h' : SameFrameStatus t u) : SameFrameStatus s u := by
  simp_all [SameFrameStatus]

theorem SameStream.trans (h : SameStream s t) (h' : SameStream t u) : SameStream s u := by
  simp_all [SameStream]

theorem SameParameters.trans (h : SameParameters s t) (h' : SameParameters t u) : SameParameters s u := by
  simp_all [SameParameters]

/-- The frame and its freshness are as they were, and every frame handed to the sink since is that frame. -/
structure KeepsFrame (s t : State) : Prop where
  fb : SameFb s t
  status : SameFrameStatus s t
  cap : t.cap = s.cap
  out : ∃ mid, t.out = s.out ++ mid ∧ ∀ o ∈ mid, o.bytes = frame s

theorem KeepsFrame.frame_eq (h : KeepsFrame s t) : frame t = frame s := frame_congr h.status.1 fun j _ => h.fb j

theorem KeepsFrame.trans (h : KeepsFrame s t) (h' : KeepsFrame t u) : KeepsFrame s u := by
  obtain ⟨mid, hout, hmid⟩ := h.out
  obtain ⟨mid', hout', hmid'⟩ := h'.out
  refine ⟨fun k => (h'.fb k).trans (h.fb k), h.status.trans h'.status,
    h'.cap.trans h.cap, mid ++ mid', by rw [hout', hout, List.append_assoc], fun o ho => ?_⟩
  rcases List.mem_append.1 ho with hold | hnew
  · exact hmid o hold
  · exact (hmid' o hnew).trans h.frame_eq

theorem KeepsFrame.of_setHost {rest : List BusEvent} (h : KeepsFrame (setHost rest s) t) : KeepsFrame s t :=
  ⟨h.fb, h.status, h.cap, h.out⟩

theorem KeepsFrame.of_out_eq (hfb : SameFb s t) (hstatus : SameFrameStatus s t) (hcap : t.cap = s.cap)
    (hout : t.out = s.out) : KeepsFrame s t :=
  ⟨hfb, hstatus, hcap, [], hout.trans (List.append_nil _).symm, nofun⟩

/-- RESUM of a fresh frame writes the checksum it holds already (43_frame_control.md R151). -/
theorem exec_sameFb_of_legal (hl : LegalState s) (hv : s.frameValid = true)
    (hi : i ∉ [Instr.buildEchoReq, .buildEchoRep, .buildTsReq, .buildTsRep]) (h : exec i s = .next t) :
    SameFb s t := by
  by_cases hresum : i = .resum
  · subst hresum
    rcases execResum_cases h with ⟨-, rfl⟩ | ⟨-, -, rfl⟩ | ⟨-, -, rfl⟩
    · exact fun _ => rfl
    · exact fun _ => rfl
    · exact sameFb_resummed (hl.fresh hv).2
  · refine exec_sameFb h ?_
    simp_all

/-- VALIDATE of a fresh frame matches, and no other command makes a frame stale (43_frame_control.md R150). -/
theorem exec_frameValid_of_legal (hl : LegalState s) (hv : s.frameValid = true) (h : exec i s = .next t) :
    t.frameValid = s.frameValid := by
  rcases exec_frameValid h with hsame | ⟨-, hfresh⟩ | ⟨rfl, -⟩
  · exact hsame
  · exact hfresh.trans hv.symm
  · obtain ⟨hle, hvalid⟩ := hl.fresh hv
    obtain rfl := Host.Outcome.next.inj ((exec_validate_of_validPacket hle hvalid).symm.trans h)
    exact hv.symm

theorem exec_keepsFrame (hl : LegalState s) (hv : s.frameValid = true)
    (hi : i ∉ [Instr.buildEchoReq, .buildEchoRep, .buildTsReq, .buildTsRep]) (h : exec i s = .next t) :
    KeepsFrame s t := by
  refine ⟨exec_sameFb_of_legal hl hv hi h, ⟨exec_len h hi, exec_frameValid_of_legal hl hv h⟩, exec_cap h, ?_⟩
  rcases exec_out h with hsame | ⟨-, -, -, a, -, hout⟩
  · exact ⟨[], hsame.trans (List.append_nil _).symm, nofun⟩
  · exact ⟨_, hout, by simp⟩

theorem host_of_nextCommand (h : nextCommand s = some i) :
    ∃ c, NextEvent (.access (.wr32 (Reg.offset .cmd) c)) s ∧ decode c = .instr i := by
  unfold nextCommand at h
  split at h
  case h_1 off c rest hhost =>
    split at h
    case isTrue hoff =>
      split at h
      case h_1 j hd =>
        obtain rfl := Option.some.inj h
        exact ⟨c, hoff ▸ nextEvent_of_host hhost, hd⟩
      case h_2 => exact nomatch h
    case isFalse => exact nomatch h
  case h_2 => exact nomatch h

/-- A step whose event leaves the frame keeps a fresh frame (43_frame_control.md R153). -/
theorem step_keepsFrame (hl : LegalState s) (hv : s.frameValid = true)
    (hleaves : ∀ e, NextEvent e s → LeavesFrame s e) (h : step s = .next t) : KeepsFrame s t := by
  rcases step_command_or_port h with ⟨_, hnext, -⟩ | ⟨i, rest, hcmd, hx⟩ | hport
  · exact (hleaves _ hnext).elim
  · obtain ⟨c, hnext, hd⟩ := host_of_nextCommand hcmd
    have hi : i ∉ [Instr.buildEchoReq, .buildEchoRep, .buildTsReq, .buildTsRep] := fun hmem =>
      (hleaves _ hnext).2 rfl i hmem hd
    have hkeeps : KeepsFrame (setHost rest s) t := exec_keepsFrame (LegalState_setHost hl) hv hi hx
    exact hkeeps.of_setHost
  · have hfb : ∀ k v, k < frameCap s → ¬ NextEvent (.access (.wr8 (fbOffset k) v)) s := fun k v hk hnext =>
      nomatch (fbIndex_fbOffset hk).symm.trans (hleaves _ hnext)
    refine .of_out_eq (fun k => ?fb) ?status (step_cap h) hport.out
    case fb =>
      rcases hport.fb k with hsame | ⟨hk, v, hnext⟩
      · exact hsame
      · exact absurd hnext (hfb k v hk)
    case status =>
      rcases hport.status with hsame | ⟨-, v, hnext⟩ | ⟨-, k, v, -, hk, hnext⟩
      · exact hsame
      · exact absurd rfl (hleaves _ hnext).1
      · exact absurd hnext (hfb k v hk)

theorem leavesFrame_congr (h : t.cap = s.cap) (e : BusEvent) : LeavesFrame t e ↔ LeavesFrame s e := by
  unfold LeavesFrame fbIndex
  rw [frameCap_congr h]

/-- A run of events that leave the frame keeps a fresh frame and comes to the events behind them. -/
theorem run_keepsFrame {between rest : List BusEvent} {m : Nat} (hl : LegalState s) (hv : s.frameValid = true)
    (hall : ∀ e ∈ between, LeavesFrame s e) (hhost : s.host = between ++ rest)
    (hrun : core.run (between.length + m) s = .next t) :
    ∃ u, KeepsFrame s u ∧ LegalState u ∧ u.host = rest ∧ core.run m u = .next t := by
  induction between generalizing s with
  | nil => exact ⟨s, .of_out_eq (fun _ => rfl) ⟨rfl, rfl⟩ rfl rfl, hl, hhost, by simpa using hrun⟩
  | cons e between ih =>
    rw [List.length_cons, Nat.add_right_comm] at hrun
    obtain ⟨u, hstep, hrun⟩ := core_run_succ hrun
    have hkeeps : KeepsFrame s u := by
      refine step_keepsFrame hl hv (fun d hd => ?_) hstep
      rw [NextEvent, hhost] at hd
      exact Option.some.inj hd ▸ hall e List.mem_cons_self
    have hhost' : u.host = between ++ rest := by rw [step_host hstep, hhost]; rfl
    obtain ⟨w, hkeeps', hl', hrest, hrun⟩ := ih (LegalState_step hstep hl) (hkeeps.status.2.trans hv)
      (fun d hd => (leavesFrame_congr hkeeps.cap d).2 (hall d (List.mem_cons_of_mem e hd))) hhost' hrun
    exact ⟨w, hkeeps.trans hkeeps', hl', hrest, hrun⟩

/-- An EMIT of a fresh frame, as a step that completes (43_frame_control.md R152). -/
theorem step_emit {rest : List BusEvent} (hl : LegalState s) (hv : s.frameValid = true)
    (hhost : s.host = .access (.wr32 (Reg.offset .cmd) 0x20000000) :: rest) (h : step s = .next t) :
    KeepsFrame s t ∧ t.host = rest ∧ ∃ a, t.out = s.out ++ [⟨frame s, a⟩] := by
  have hd : decode 0x20000000 = .instr .emit := by decide
  have hx := (step_instr hhost hd).symm.trans h
  have hkeeps : KeepsFrame (setHost rest s) t := exec_keepsFrame (LegalState_setHost hl) hv (by decide) hx
  refine ⟨hkeeps.of_setHost, (exec_host_replies hx).1, ?_⟩
  cases ha : sinkAnswer (setHost rest s) with
  | none => exact nomatch hx.symm.trans (exec_emit_of_never (hl.fresh hv).1 hv ha)
  | some a =>
    obtain ⟨u, hu, hout, -⟩ := exists_emit_of_answer (s := setHost rest s) (hl.fresh hv).1 hv ha
    obtain rfl := Host.Outcome.next.inj (hu.symm.trans hx)
    exact ⟨a, hout⟩

end Sys2Proof.Machine
end

section
/-! The obligations of the family other about runs. -/

open Sys2Proof Sys2Proof.Machine

/-- Settles O44: a sealed frame is a valid packet, which VALIDATE matches. -/
theorem sealedFrameValidates : Obligations.SealedFrameValidates := by
  intro i s hs
  obtain ⟨t, hnext, hle, hvalid⟩ := exists_next_validPacket hs
  have h4 : 4 ≤ frameLen t := frame_length t ▸ hvalid.1
  have hcsum : csum (zeroField (frame t)) = fbByte t 2 ++ fbByte t 3 := hvalid.2.symm.trans (storedField_fbBytes t _ h4)
  refine ⟨setVerdict true false (sumBytes (zeroField (frame t)) t), ?run, rfl, rfl, rfl, rfl, ?errors, ?field⟩
  case run => simp only [execAll, hnext, exec_validate_of_validPacket hle hvalid]
  case errors => simpa [SameErrors] using exec_sameErrors_of_seal hnext hs
  case field => rw [setVerdict_csum, sumBytes_csum_eq, hcsum, fbByte_setVerdict, fbByte_setVerdict, fbByte_sumBytes,
      fbByte_sumBytes]

/-- Settles O45: the write sets one byte of a valid packet, which changes its checksum but not its field. -/
theorem corruptedByteMismatches : Obligations.CorruptedByteMismatches := by
  intro s k v rest hl hv hk h2 h3 hne hhost
  obtain ⟨hle, hvalid⟩ := hl.fresh hv
  have hmem : k < (frame s).length := by rwa [frame_length]
  have hmismatch := csum_zeroField_set_ne hvalid hmem h2 h3 (v := v) (by rwa [frame_getElem])
  obtain ⟨u, hwrite, hhost', hlen, hcap, hframe, herrors⟩ := exists_step_wr8 (hk.trans_le hle) hhost
  have hfits : frameLen u ≤ frameCap u := by rwa [hlen, hcap]
  have h4 : 4 ≤ frameLen u := by rw [hlen, ← frame_length]; exact hvalid.1
  have hframe' : frame (setHost rest u) = (frame s).set k v := hframe
  have hvalidate := (step_instr hhost' (i := .validate) (by decide)).trans
    (exec_validate_eq (s := setHost rest u) hfits h4)
  rw [hframe', decide_eq_false hmismatch] at hvalidate
  refine ⟨_, (core_run_succ_of_step 1 hwrite).trans (core_run_succ_of_step 0 hvalidate), rfl, rfl, rfl, rfl, ?_⟩
  simpa [SameErrors] using herrors

/-- Settles O47: the head of the message that each build makes. -/
theorem variantTypes : Obligations.VariantTypes := by
  intro i type s t hi hs h
  have hb : ∃ n body, Builds s i type n body := by
    simp only [List.mem_cons, List.not_mem_nil, or_false, Prod.mk.injEq] at hi
    rcases hi with ⟨rfl, rfl⟩ | ⟨rfl, rfl⟩ | ⟨rfl, rfl⟩ | ⟨rfl, rfl⟩
    · exact ⟨_, _, .echoReq⟩
    · exact ⟨_, _, .echoRep⟩
    · exact ⟨_, _, .tsReq⟩
    · exact ⟨_, _, .tsRep⟩
  obtain ⟨n, body, hb⟩ := hb
  obtain ⟨payload, hfrom⟩ := hb.exists_builtFrom hs h
  exact hfrom.head

/-- Settles O40: EMIT leaves all that the next EMIT reads but the sink, and so does every event between. -/
theorem emitTwiceEmitsSameBytes : Obligations.EmitTwiceEmitsSameBytes := by
  refine ⟨fun s a b hle hv ha hb => ?adjacent, fun s t between rest hl hv hall hhost hrun => ?apart⟩
  case adjacent =>
    obtain ⟨t, ht, hout, hsink, hdraws⟩ := exists_emit_of_answer hle hv ha
    obtain ⟨hstatus, hstream⟩ := exec_emit_frame ht
    have hfb := exec_sameFb ht (by decide)
    have hframe : frame t = frame s := frame_congr hstatus.1 fun j _ => hfb j
    have hfits : frameLen t ≤ frameCap t := by rwa [frameLen_congr hstatus.1, frameCap_congr (exec_cap ht)]
    obtain ⟨u, hu, hout', hsink', hdraws'⟩ :=
      exists_emit_of_answer hfits (hstatus.2.trans hv) ((sinkAnswer_congr hsink hdraws).trans hb)
    obtain ⟨hstatus', hstream'⟩ := exec_emit_frame hu
    obtain ⟨hsinks, hcount⟩ := consumeSink_congr hsink hdraws
    refine ⟨u, by simp only [execAll, ht, hu], by rw [hout', hout, hframe, List.append_assoc]; rfl,
      hsink'.trans hsinks, hdraws'.trans hcount, fun k => (exec_sameFb hu (by decide) k).trans (hfb k),
      hstatus.trans hstatus', (exec_sameParameters ht).trans (exec_sameParameters hu), hstream.trans hstream'⟩
  case apart =>
    obtain ⟨u, hstep, hrun⟩ := core_run_succ hrun
    obtain ⟨hkeeps, hhost', a, hout⟩ := step_emit hl hv hhost hstep
    have hv' : u.frameValid = true := hkeeps.status.2.trans hv
    obtain ⟨w, hkeeps', hl', hrest, hrun⟩ := run_keepsFrame (LegalState_step hstep hl) hv'
      (fun e he => (leavesFrame_congr hkeeps.cap e).2 (hall e he)) hhost' hrun
    obtain ⟨x, hlast, hrun⟩ := core_run_succ hrun
    obtain rfl : x = t := Host.Outcome.next.inj hrun
    obtain ⟨hkeeps'', hhost'', b, hout''⟩ := step_emit hl' (hkeeps'.status.2.trans hv') hrest hlast
    obtain ⟨mid, hmid, hsame⟩ := hkeeps'.out
    have hall := (hkeeps.trans hkeeps').trans hkeeps''
    refine ⟨a, b, mid, ?_, fun o ho => (hsame o ho).trans hkeeps.frame_eq, hhost'', hall.fb, hall.status⟩
    rw [hout'', hmid, hout, (hkeeps.trans hkeeps').frame_eq]
    simp

end

section
/-! The family other, the assembler: the command words as sums, and the lists a statement list and an expansion make (30_encoding.md R71, R79, R80). -/

namespace Sys2Proof.Machine

/-! ### Command words -/

/-- A command word as a number: OP above, the immediate field below (30_encoding.md R70, R71). -/
theorem encode_toNat (i : Instr) : (encode i).toNat = i.opcode.toNat * 2 ^ 24 + i.immediate.toNat := by
  unfold encode
  rw [BitVec.toNat_append, BitVec.toNat_append, ← Nat.shiftLeft_add_eq_or_of_lt i.immediate.isLt,
    ← Nat.shiftLeft_add_eq_or_of_lt (0 : Byte).isLt, Nat.shiftLeft_eq, Nat.shiftLeft_eq]
  simp
  omega

theorem encode_ckAdd8 {b : Nat} (h : b < 256) :
    encode (.ckAdd8 (BitVec.ofNat 8 b)) = BitVec.ofNat 32 (0x03000000 + b) := by
  have hop : (Instr.ckAdd8 (BitVec.ofNat 8 b)).opcode.toNat = 0x03 := rfl
  have himm : (Instr.ckAdd8 (BitVec.ofNat 8 b)).immediate.toNat = b := by
    rw [Instr.immediate, BitVec.toNat_setWidth, BitVec.toNat_ofNat]
    omega
  refine BitVec.eq_of_toNat_eq ?_
  rw [encode_toNat, hop, himm, BitVec.toNat_ofNat]
  omega

theorem encode_ckAdd16 {w : Nat} (h : w < 65536) :
    encode (.ckAdd16 (BitVec.ofNat 16 w)) = BitVec.ofNat 32 (0x02000000 + w) := by
  have hop : (Instr.ckAdd16 (BitVec.ofNat 16 w)).opcode.toNat = 0x02 := rfl
  have himm : (Instr.ckAdd16 (BitVec.ofNat 16 w)).immediate.toNat = w := by
    rw [Instr.immediate, BitVec.toNat_ofNat]
    omega
  refine BitVec.eq_of_toNat_eq ?_
  rw [encode_toNat, hop, himm, BitVec.toNat_ofNat]
  omega

/-! ### Statements -/

/-- A statement assembles to its access exactly when its operands fit (30_encoding.md R79). -/
theorem assemble_eq {t : Stmt} {a : HostAccess} {p : Prop} [Decidable p] (h : t.wellFormed = decide p)
    (ha : p → t.access = a) : Stmt.assemble t = if p then some a else none := by
  rw [Stmt.assemble, h]
  by_cases hp : p
  · rw [if_pos hp, if_pos (decide_eq_true hp), ha hp]
  · rw [if_neg hp, if_neg (by simpa using hp)]

/-! ### Lists -/

theorem assembleAll_cons (t : Stmt) (ts : List Stmt) :
    assembleAll (t :: ts) = t.assemble.bind fun a => (assembleAll ts).map (a :: ·) := by
  rw [assembleAll, assembleAll, List.mapM_cons]
  cases t.assemble with
  | none => rfl
  | some a => cases List.mapM Stmt.assemble ts <;> rfl

theorem assembleAll_eq_some_iff {ts : List Stmt} {us : List HostAccess} :
    assembleAll ts = some us ↔ ts.map Stmt.assemble = us.map some := by
  induction ts generalizing us with
  | nil => cases us <;> simp [assembleAll]
  | cons t ts ih =>
    rw [assembleAll_cons, List.map_cons]
    cases us with
    | nil => cases t.assemble <;> cases assembleAll ts <;> simp
    | cons u us =>
      rw [List.map_cons, List.cons.injEq, ← ih]
      cases t.assemble <;> cases assembleAll ts <;> simp

theorem expandFbBytes_eq (k : Nat) (bs : List Nat) :
    expandFbBytes k bs = (List.range bs.length).map fun j => Stmt.fb (k + j) (bs.getD j 0) := by
  induction bs generalizing k with
  | nil => rfl
  | cons b bs ih =>
    rw [expandFbBytes, ih, List.length_cons, List.range_succ_eq_map, List.map_cons, List.map_map]
    refine congrArg _ (List.map_congr_left fun j _ => ?_)
    simp only [Function.comp, List.getD_cons_succ, Nat.succ_eq_add_one, Nat.add_assoc, Nat.add_comm 1 j]

/-- CK_ADD32 pushes the high half, then the low half (30_encoding.md R80). -/
theorem expand_ckAdd32 {v : Nat} (h : v < 2 ^ 32) : Pseudo.expand (.ckAdd32 v) =
    [.ckAdd16 ((BitVec.ofNat 32 v).extractLsb' 16 16).toNat,
      .ckAdd16 ((BitVec.ofNat 32 v).extractLsb' 0 16).toNat] := by
  have hhigh : ((BitVec.ofNat 32 v).extractLsb' 16 16).toNat = v / 2 ^ 16 := by
    rw [BitVec.extractLsb'_toNat, BitVec.toNat_ofNat, Nat.shiftRight_eq_div_pow]
    omega
  have hlow : ((BitVec.ofNat 32 v).extractLsb' 0 16).toNat = v % 2 ^ 16 := by
    rw [BitVec.extractLsb'_toNat, BitVec.toNat_ofNat, Nat.shiftRight_zero]
    omega
  rw [hhigh, hlow, Pseudo.expand]

/-- A v above 32 bits leaves a high part above 16 bits (30_encoding.md R80). -/
theorem assembleAll_ckAdd32_eq_none {v : Nat} (h : 2 ^ 32 ≤ v) : assembleAll (Pseudo.expand (.ckAdd32 v)) = none := by
  have hhigh : Stmt.assemble (.ckAdd16 (v / 2 ^ 16)) = none := if_neg (by simp [Stmt.wellFormed]; omega)
  rw [Pseudo.expand, assembleAll_cons, hhigh, Option.bind_none]

end Sys2Proof.Machine
end

section
/-! The obligation of the family other about the assembler. -/

open Sys2Proof Sys2Proof.Machine

/-- Settles O60: each statement by its field check, the lists by induction, the other rows by definition. -/
theorem assemblerRejectsOversizedOperands : Obligations.AssemblerRejectsOversizedOperands := by
  refine ⟨fun r v => ?wr, fun r => rfl, fun k b => ?fb, fun k => ?fbrd, ?f0, ⟨fun _ => rfl, fun _ => rfl⟩,
    fun b => ?ckAdd8, fun w => ?ckAdd16, fun c => ?cmd, fun _ _ => assembleAll_eq_some_iff, expandFbBytes_eq,
    fun _ => rfl, fun _ => expand_ckAdd32, fun _ => assembleAll_ckAdd32_eq_none, fun _ => rfl, fun _ => rfl,
    fun _ _ => rfl, fun _ _ => rfl, fun _ _ _ _ _ => rfl, fun _ _ _ _ _ => rfl⟩
  case wr => exact assemble_eq rfl fun _ => rfl
  case fb => exact assemble_eq (Bool.decide_and _ _).symm fun _ => rfl
  case fbrd => exact assemble_eq rfl fun _ => rfl
  case f0 => decide
  case ckAdd8 => exact assemble_eq rfl fun h => congrArg _ (encode_ckAdd8 h)
  case ckAdd16 => exact assemble_eq rfl fun h => congrArg _ (encode_ckAdd16 h)
  case cmd => exact assemble_eq rfl fun _ => rfl

end
